-- ==== Sys2Proof/Word.lean ====
section
/-! DEFINITION. The plain value types of the core: bytes, 32-bit register words, and the byte
sequences of fixed length the spec names (00_scope.md R8, R10). -/

namespace Sys2Proof

/-- R10: an unsigned 8-bit value, bit 0 least significant. -/
abbrev Byte := BitVec 8

/-- R10: a 32-bit register value. -/
abbrev Word := BitVec 32

/-- R121: the four bytes of one word of the key schedule, or of one column of the state, lowest
index first. -/
abbrev Quad := Vector Byte 4

/-- R8: sixteen bytes, lowest index first (the state, a root key, a round key). -/
abbrev Block := Vector Byte 16

/-- R8, R23: the 176 bytes of a key schedule. -/
abbrev Schedule := Vector Byte 176

/-- R11: the position-by-position XOR of two byte sequences of one length. -/
def xorBytes {n : Nat} (a b : Vector Byte n) : Vector Byte n :=
  Vector.ofFn fun k => a[k] ^^^ b[k]

end Sys2Proof
end

