-- ==== Sys2Proof/Config.lean ====
section
/-! DEFINITION. What the spec leaves open: the parameters of 00_scope.md R9, and the value a hazard
read returns. Each is a constant without a body, so no proof can rest on a value of it. -/

namespace Sys2Proof

/-- R9, R26: the primary root key of a core as it is built. `State.reset` puts it into `State.key0`
(log entry 2). -/
opaque Config.key0 : Block

/-- R9, R26: the secondary root key of a core as it is built. `State.reset` puts it into `State.key1`
(log entry 2). -/
opaque Config.key1 : Block

/-- R9, R26: the premise that the two root keys differ. The model does not assume it; a claim that
needs it takes it as a hypothesis. -/
def Config.KeysDiffer : Prop := Config.key0 ≠ Config.key1

/-- R9, R50: the base address of the register window on the host's bus (log entry 3). -/
opaque Config.base : Nat

/-- R208: the word the n-th hazard read returns, a FREE VALUE ("the read may return old, new or mixed
bytes"); n is `State.freeCount` (log entry 7). -/
opaque Config.hazardRead : Nat → Word

/-- R9, R250: `LAT(op)`, the number of clock cycles from acceptance to completion, a function of the
opcode only. The model is untimed (R251): no step reads it (log entry 14). -/
opaque Config.lat : BitVec 4 → Nat

end Sys2Proof
end

