-- ==== Sys2Proof/Machine/State.lean ====
section
/-! DEFINITION. The state of the core, every item of 10_state.md R20, with the model's own fields for
what the environment does next and for what the host's last read returned; the reasons a step can
stop; and the state after reset (R41). -/

namespace Sys2Proof.Machine

/-- R204: the values of `STATUS.ERRCODE`. The reserved codes 0x4..0xF are never produced. -/
inductive ErrCode where
  /-- 0x0, no error since reset. -/
  | none
  /-- 0x1, a CMD write of an illegal word while `BUSY = 0`. -/
  | illegalCmd
  /-- 0x2, a CMD write while `BUSY = 1`. -/
  | cmdBusy
  /-- 0x3, a misaligned, non-32-bit, unmapped or wrong-direction access. -/
  | badAccess
  deriving DecidableEq, Repr

/-- R208: the kinds of model fault. A model fault is a record in `State.faults`; it stops nothing. -/
inductive ModelFault where
  /-- a read of, or a command on, data not written since reset. -/
  | unwritten
  /-- an access to STATE, RESULT or KS while `BUSY = 1`. -/
  | hazard
  deriving DecidableEq, Repr

/-- R38, R205, R207: one entry of the fault record. -/
inductive FaultRecord where
  | hardwareError (code : ErrCode)
  | modelFault (kind : ModelFault)
  deriving DecidableEq, Repr

/-- R36: the orchestrator's position in an ENCRYPT. The spec names `RoundTransform(r)` for r in 1..9
only; the sequence of R172 produces no other. -/
inductive Phase where
  | idle
  | expand
  | keyAddition (r : Fin 11)
  | roundTransform (r : Fin 11)
  | finalTransform
  | done
  deriving DecidableEq, Repr

/-- R13, R55 to R57: one access of the host's bus. `addr` is the bus address, `size` the number of
bytes accessed, of which only 4 is legal; a write of another size has no effect of its value, so the
value is a word (log entry 17). -/
inductive Access where
  | read (addr size : Nat)
  | write (addr size : Nat) (v : Word)
  deriving DecidableEq, Repr

/-- R200, R201, R230: what can happen next: an access of the host, the engine's turn, or an assertion
of the reset input (log entry 4). -/
inductive Event where
  | host (a : Access)
  | engine
  | reset
  deriving DecidableEq, Repr

/-- R20: the core's state. The last three fields are the model's own. -/
structure State where
  /-- R21: STATE[0..15], column-major. -/
  state : Block
  /-- R23: KS[0..175]. -/
  ks : Schedule
  /-- R25: RCON. -/
  rcon : Byte
  /-- R26: KEY0, a constant of the core: no step changes it. -/
  key0 : Block
  /-- R26: KEY1, a constant of the core: no step changes it. -/
  key1 : Block
  /-- R28: RESULT. -/
  result : Byte
  /-- R31: STATUS.BUSY. -/
  busy : Bool
  /-- R32: STATUS.DONE. -/
  done : Bool
  /-- R33: STATUS.ERR. -/
  err : Bool
  /-- R33: STATUS.ERRCODE. -/
  errcode : ErrCode
  /-- R35: PENDING. -/
  pending : Option Word
  /-- R36: PHASE. -/
  phase : Phase
  /-- R37: STATE_W[0..3]. -/
  stateW : Vector Bool 4
  /-- R37: KS_W. -/
  ksW : Bool
  /-- R37: RES_W. -/
  resW : Bool
  /-- R38: FAULTS, oldest first. -/
  faults : List FaultRecord
  /-- The model's own: what the environment does, next event first (log entry 4). -/
  agenda : List Event
  /-- The model's own: what the host's last read returned (log entry 12). -/
  rdata : Option Word
  /-- The model's own: how many free values have been drawn (log entry 7). -/
  freeCount : Nat
  deriving DecidableEq, Repr

/-- R41: the machine right after reset, at the start of a run. The contents of STATE, KS, RESULT and
RCON are unspecified there; the model's zeros are a DESIGN CHOICE, unsafe (log entry 1). The keys are
those of the core as built (log entry 2). -/
def State.reset : State where
  state := Vector.replicate 16 0
  ks := Vector.replicate 176 0
  rcon := 0
  key0 := Config.key0
  key1 := Config.key1
  result := 0
  busy := false
  done := false
  err := false
  errcode := .none
  pending := none
  phase := .idle
  stateW := Vector.replicate 4 false
  ksW := false
  resW := false
  faults := []
  agenda := []
  rdata := none
  freeCount := 0

/-- Why the machine stops. No state a run from reset reaches stops (log entry 13). -/
inductive Fault where
  /-- Raised by `step` at the engine's turn when PENDING holds a word that R78 calls illegal. R80 never
  puts one there, so the spec gives it no meaning. Safe: the model stops. -/
  | pendingIllegal
  /-- Raised by the meaning of ARK when RND is in 11..15, which R75 says names no round key. R77
  refuses such a word at the CMD write, so no legal command reaches it. Safe: the model stops. -/
  | noSuchRoundKey
  deriving DecidableEq, Repr

/-- Why an instruction has no meaning. -/
inductive Refusal where
  /-- Raised only by an arm of `exec` that has no meaning yet. Safe: the model stops. -/
  | notModelled (mnemonic : String)
  deriving DecidableEq, Repr

end Sys2Proof.Machine
end

