-- ==== Sys2Proof/Machine/Flags.lean ====
section
/-! DEFINITION. The STATUS register as the host reads it, and the changes of its BUSY and DONE bits
when a command is accepted and when it completes (10_state.md R30 to R34, 30_encoding.md R80,
60_exceptions.md R201). -/

namespace Sys2Proof.Machine

/-- R204: the four bits of an error code. -/
def errBits : ErrCode → BitVec 4
  | .none => 0x0
  | .illegalCmd => 0x1
  | .cmdBusy => 0x2
  | .badAccess => 0x3

/-- R34: `STATUS.RETCODE`, hardwired. -/
def retCode : Byte := 0x00

/-- R30: the STATUS register, most significant field first: reserved [31:16], RETCODE, ERRCODE,
reserved [3], ERR, DONE, BUSY. -/
def statusWord (s : State) : Word :=
  0#16 ++ retCode ++ errBits s.errcode ++ 0#1 ++ BitVec.ofBool s.err ++ BitVec.ofBool s.done
    ++ BitVec.ofBool s.busy

/-- R80: the last three assignments of a CMD write, which accept the word `v`. -/
def accept (v : Word) (s : State) : State :=
  { s with pending := some v, busy := true, done := false }

/-- R201: the assignments that end every engine step. -/
def complete (s : State) : State :=
  { s with pending := none, busy := false, done := true }

end Sys2Proof.Machine
end

