-- ==== Sys2Proof/Syntax.lean ====
section
/-! DEFINITION. The commands of the core, one constructor per row of spec/opcode_table.json, with the
operand fields 30_encoding.md R72 gives each. -/

namespace Sys2Proof

/-- R72: the eight commands. -/
inductive Instr where
  /-- `SBOX x`, R102: S-box look-up of the byte in ARG. -/
  | sbox (x : Byte)
  /-- `MUL2 x`, R105: doubling of the byte in ARG. -/
  | mul2 (x : Byte)
  /-- `MUL3 x`, R107: multiplication by 3 of the byte in ARG. -/
  | mul3 (x : Byte)
  /-- `EXPAND k`, R120: key expansion of the root key KIDX selects. -/
  | expand (k : BitVec 4)
  /-- `ROUND`, R141: one middle round transform. -/
  | round
  /-- `FINAL`, R151: the final-round transform. -/
  | final
  /-- `ARK r`, R161: AddRoundKey with the round key RND names. -/
  | ark (r : BitVec 4)
  /-- `ENCRYPT k`, R171: encryption with the root key KIDX selects. -/
  | encrypt (k : BitVec 4)
  deriving DecidableEq, Repr

end Sys2Proof
end

