-- ==== Sys2Proof/WellFormed.lean ====
section
/-! DEFINITION. Which commands are well-formed. Every operand field holds any value of its width,
but for RND, which names a round key only for 0..10 (30_encoding.md R74, R75, R76). -/

namespace Sys2Proof

/-- R75: the values of RND that name a round key. -/
def roundKeyNamed (r : BitVec 4) : Bool := decide (r.toNat ≤ 10)

/-- R74, R75, R76: the operands a command may have. -/
def wellFormed : Instr → Bool
  | .sbox _ => true
  | .mul2 _ => true
  | .mul3 _ => true
  | .expand _ => true
  | .round => true
  | .final => true
  | .ark r => roundKeyNamed r
  | .encrypt _ => true

/-- `wellFormed` as a proposition. -/
abbrev WellFormed (i : Instr) : Prop := wellFormed i = true

end Sys2Proof
end

