-- ==== Sys2Proof/Decode.lean ====
section
/-! DEFINITION. The command word: its fields, its decoder, total on every 32-bit word and refusing by
name, its encoder, and the legality predicate of 30_encoding.md R78. -/

namespace Sys2Proof

/-- R77: why a command word is illegal. -/
inductive Illegal where
  /-- `OP` is 0x0 or in 0x9..0xF. -/
  | opcode
  /-- a field the command does not use, or a reserved bit, is not zero. -/
  | unusedField
  /-- ARK with `RND > 10`. -/
  | roundKey
  deriving DecidableEq, Repr

/-- R70: `OP`, bits [3:0]. -/
def fieldOp (v : Word) : BitVec 4 := v.extractLsb' 0 4

/-- R70: `KIDX`, bits [7:4]. -/
def fieldKidx (v : Word) : BitVec 4 := v.extractLsb' 4 4

/-- R70: `RND`, bits [11:8]. -/
def fieldRnd (v : Word) : BitVec 4 := v.extractLsb' 8 4

/-- R70: the reserved bits [15:12]. -/
def fieldLowReserved (v : Word) : BitVec 4 := v.extractLsb' 12 4

/-- R70: `ARG`, bits [23:16]. -/
def fieldArg (v : Word) : Byte := v.extractLsb' 16 8

/-- R70: the reserved bits [31:24]. -/
def fieldHighReserved (v : Word) : Byte := v.extractLsb' 24 8

/-- R70: both reserved fields are zero. -/
def reservedZero (v : Word) : Bool := fieldLowReserved v == 0 && fieldHighReserved v == 0

/-- R73: a command whose only operand is ARG. -/
def decodeArg (v : Word) (i : Byte → Instr) : Except Illegal Instr :=
  if reservedZero v && fieldKidx v == 0 && fieldRnd v == 0 then .ok (i (fieldArg v))
  else .error .unusedField

/-- R73: a command whose only operand is KIDX. -/
def decodeKidx (v : Word) (i : BitVec 4 → Instr) : Except Illegal Instr :=
  if reservedZero v && fieldRnd v == 0 && fieldArg v == 0 then .ok (i (fieldKidx v))
  else .error .unusedField

/-- R73, R77: ARK, whose only operand is RND, with RND at most 10. -/
def decodeRnd (v : Word) (i : BitVec 4 → Instr) : Except Illegal Instr :=
  if reservedZero v && fieldKidx v == 0 && fieldArg v == 0 then
    if roundKeyNamed (fieldRnd v) then .ok (i (fieldRnd v)) else .error .roundKey
  else .error .unusedField

/-- R73: a command without operands. -/
def decodeBare (v : Word) (i : Instr) : Except Illegal Instr :=
  if reservedZero v && fieldKidx v == 0 && fieldRnd v == 0 && fieldArg v == 0 then .ok i
  else .error .unusedField

/-- R72, R77: the command a word presents, or why it is illegal. -/
def decode (v : Word) : Except Illegal Instr :=
  if fieldOp v = 0x1 then decodeArg v .sbox
  else if fieldOp v = 0x2 then decodeArg v .mul2
  else if fieldOp v = 0x3 then decodeArg v .mul3
  else if fieldOp v = 0x4 then decodeKidx v .expand
  else if fieldOp v = 0x5 then decodeBare v .round
  else if fieldOp v = 0x6 then decodeBare v .final
  else if fieldOp v = 0x7 then decodeRnd v .ark
  else if fieldOp v = 0x8 then decodeKidx v .encrypt
  else .error .opcode

/-- R78: the decoding predicate, as the spec writes it with masks. -/
def legal (v : Word) : Bool :=
  ((fieldOp v == 0x1 || fieldOp v == 0x2 || fieldOp v == 0x3) && v &&& 0xFF00FFF0 == 0)
  || ((fieldOp v == 0x4 || fieldOp v == 0x8) && v &&& 0xFFFFFF00 == 0)
  || (fieldOp v == 0x7 && v &&& 0xFFFFF0F0 == 0 && decide ((fieldRnd v).toNat ≤ 10))
  || ((fieldOp v == 0x5 || fieldOp v == 0x6) && v &&& 0xFFFFFFF0 == 0)

/-- R72: the opcode of a command. -/
def opcode : Instr → BitVec 4
  | .sbox _ => 0x1
  | .mul2 _ => 0x2
  | .mul3 _ => 0x3
  | .expand _ => 0x4
  | .round => 0x5
  | .final => 0x6
  | .ark _ => 0x7
  | .encrypt _ => 0x8

/-- R70: the word of format CMD32 with the given fields and zero reserved bits. -/
def assemble (op kidx rnd : BitVec 4) (arg : Byte) : Word :=
  0#8 ++ arg ++ 0#4 ++ rnd ++ kidx ++ op

/-- R72, R73, R81: the word of a command. -/
def encode : Instr → Word
  | .sbox x => assemble 0x1 0 0 x
  | .mul2 x => assemble 0x2 0 0 x
  | .mul3 x => assemble 0x3 0 0 x
  | .expand k => assemble 0x4 k 0 0
  | .round => assemble 0x5 0 0 0
  | .final => assemble 0x6 0 0 0
  | .ark r => assemble 0x7 0 r 0
  | .encrypt k => assemble 0x8 k 0 0

/-- R250: the latency of a command, `LAT` of its opcode alone (log entry 14). -/
def latency (i : Instr) : Nat := Config.lat (opcode i)

/-- The command word whose `nbits` low bits are those of `w` and whose other bits are zero. A command
is one 32-bit word (R71), so bit n of the table's numbering is bit n of the word. -/
def tableWord (nbits w : Nat) : Word := BitVec.ofNat 32 (w % 2 ^ nbits)

/-- The host's decoder query: what `decode` reads from the table's numbering of a word. -/
def decodeTableWord (nbits w : Nat) : Option Instr := (decode (tableWord nbits w)).toOption

end Sys2Proof
end

