-- ==== Sys2Proof/Machine/Operands.lean ====
section
/-! DEFINITION. The operand forms of the commands: the root key KIDX selects, the round key RND names,
and which data a command reads (30_encoding.md R74, R75, R79). -/

namespace Sys2Proof.Machine

/-- R74: `rootkey(KIDX)`. -/
def rootKey (k : BitVec 4) (s : State) : Block := if k = 0 then s.key0 else s.key1

/-- R23: `RK(r)` of a schedule, its bytes 16r .. 16r+15. -/
def roundKey (w : Schedule) (r : Fin 11) : Block :=
  Vector.ofFn fun j : Fin 16 => w[16 * r.val + j.val]

/-- R79: the commands that read STATE. -/
def readsState : Instr → Bool
  | .sbox _ => false
  | .mul2 _ => false
  | .mul3 _ => false
  | .expand _ => false
  | .round => true
  | .final => true
  | .ark _ => true
  | .encrypt _ => true

/-- R79: the commands that read KS. -/
def readsKs : Instr → Bool
  | .sbox _ => false
  | .mul2 _ => false
  | .mul3 _ => false
  | .expand _ => false
  | .round => false
  | .final => false
  | .ark _ => true
  | .encrypt _ => false

end Sys2Proof.Machine
end

