-- ==== Sys2Proof/Machine/Ops.lean ====
section
/-! DEFINITION. The shared operations on the state: raising an error or a model fault (the core has no
trap, 60_exceptions.md R211, so these stand where taking an exception would), writing each data
register with its mark, the byte packing of the window, reset, and the reply to a read. -/

namespace Sys2Proof.Machine

/-- R205: `raise Error(code)`. The first error since reset is latched; every error is recorded. -/
def raiseError (code : ErrCode) (s : State) : State :=
  { s with
    err := true
    errcode := if s.err then s.errcode else code
    faults := s.faults ++ [.hardwareError code] }

/-- R207: `raise ModelFault(kind)`. -/
def raiseModelFault (kind : ModelFault) (s : State) : State :=
  { s with faults := s.faults ++ [.modelFault kind] }

/-- R37: raise the model fault Unwritten where the condition holds. -/
def raiseUnwrittenIf (c : Bool) (s : State) : State :=
  if c then raiseModelFault .unwritten s else s

/-- R37: every STATE_W mark is set. -/
def stateWritten (s : State) : Bool :=
  s.stateW[0] && s.stateW[1] && s.stateW[2] && s.stateW[3]

/-- R22, R37: a command writes all 16 bytes of STATE and so sets every column's mark. -/
def writeState (b : Block) (s : State) : State :=
  { s with state := b, stateW := Vector.replicate 4 true }

/-- R24, R37: a command writes all 176 bytes of KS; `rc` is what its expansion leaves in RCON. -/
def writeSchedule (w : Schedule) (rc : Byte) (s : State) : State :=
  { s with ks := w, rcon := rc, ksW := true }

/-- R28, R37: a command writes RESULT. -/
def writeResult (x : Byte) (s : State) : State :=
  { s with result := x, resW := true }

/-- R52: byte m of a register word, `v[8m+7 : 8m]`. -/
def byteOf (v : Word) (m : Nat) : Byte := v.extractLsb' (8 * m) 8

/-- R52: the register word of four bytes, the byte at the lowest offset in bits [7:0]. -/
def packWord (b0 b1 b2 b3 : Byte) : Word := b3 ++ b2 ++ b1 ++ b0

/-- R52: the register STATEj, column j of the state. -/
def stateReg (s : State) (j : Fin 4) : Word :=
  packWord s.state[4 * j.val] s.state[4 * j.val + 1] s.state[4 * j.val + 2] s.state[4 * j.val + 3]

/-- R52: the register KSn, word n of the key schedule. -/
def ksReg (s : State) (n : Fin 44) : Word :=
  packWord s.ks[4 * n.val] s.ks[4 * n.val + 1] s.ks[4 * n.val + 2] s.ks[4 * n.val + 3]

/-- R56: a host write of `v` to STATEj: the four bytes of column j, and its mark. -/
def writeColumn (j : Fin 4) (v : Word) (s : State) : State :=
  { s with
    state := Vector.ofFn fun k : Fin 16 =>
      if k.val / 4 = j.val then byteOf v (k.val % 4) else s.state[k]
    stateW := s.stateW.set j.val true }

/-- R55: a host read returns `v` (log entry 12). -/
def reply (v : Word) (s : State) : State := { s with rdata := some v }

/-- R208: a hazard read is recorded and returns a FREE VALUE. DESIGN CHOICE: each hazard read draws one
of its own, so two hazard reads of one register may differ, though R59 and D29 call reads idempotent: the
model takes R59 not to bind a read that R208 leaves unspecified (log entry 7). -/
def hazardReply (s : State) : State :=
  { raiseModelFault .hazard s with
    rdata := some (Config.hazardRead s.freeCount)
    freeCount := s.freeCount + 1 }

/-- R230: the reset input. Every item of R20 goes to its value of R41, the constants and the fault
record apart; what the environment does next is not the core's (log entry 11). -/
def resetCore (s : State) : State :=
  { State.reset with
    key0 := s.key0
    key1 := s.key1
    faults := s.faults
    agenda := s.agenda
    freeCount := s.freeCount }

end Sys2Proof.Machine
end

