-- ==== Sys2Proof/Machine/Gf.lean ====
section
/-! DEFINITION. The GF(2^8) multiplier and the commands MUL2 and MUL3 (40_sbox_gf.md R104 to R109). The
core multiplies by 2 and by 3 only. -/

namespace Sys2Proof.Machine

/-- R104: doubling, with the reduction constant 0x1B where the high bit is shifted out. -/
def xtime (x : Byte) : Byte := if x.getLsbD 7 then (x <<< 1) ^^^ 0x1B else x <<< 1

/-- R106: multiplication by 3. -/
def mul3 (x : Byte) : Byte := xtime x ^^^ x

/-- R105: `MUL2 x`. -/
def execMul2 (x : Byte) (s : State) : Host.Outcome State Fault Refusal :=
  .next (complete (writeResult (xtime x) s))

/-- R107: `MUL3 x`. -/
def execMul3 (x : Byte) (s : State) : Host.Outcome State Fault Refusal :=
  .next (complete (writeResult (mul3 x) s))

end Sys2Proof.Machine
end

