-- ==== Sys2Proof/Machine/KeySchedule.lean ====
section
/-! DEFINITION. The key scheduler and the EXPAND command (41_key_schedule.md R120 to R132). -/

namespace Sys2Proof.Machine

/-- R125: `RotWord`, a left rotation by one byte. -/
def rotWord (t : Quad) : Quad := #v[t[1], t[2], t[3], t[0]]

/-- R126: `SubWord`, each byte through the S-box. -/
def subWord (t : Quad) : Quad := #v[sbox t[0], sbox t[1], sbox t[2], sbox t[3]]

/-- R127: only byte 0 is combined with the round constant. -/
def addRcon (t : Quad) (rc : Byte) : Quad := #v[t[0] ^^^ rc, t[1], t[2], t[3]]

/-- R124: the working values of one expansion, the schedule as far as it is filled and RCON. -/
structure Expansion where
  w : Schedule
  rc : Byte
  deriving DecidableEq, Repr

/-- R121: word n of a schedule, its bytes 4n .. 4n+3. -/
def scheduleWord (w : Schedule) (n : Fin 44) : Quad :=
  #v[w[4 * n.val], w[4 * n.val + 1], w[4 * n.val + 2], w[4 * n.val + 3]]

/-- R124: one iteration of the loop, for the n-th word after the root key, at offset `o = 16 + 4n`. -/
def expandWord (n : Nat) (h : n < 40) (e : Expansion) : Expansion :=
  let prev := scheduleWord e.w ⟨n + 3, by omega⟩
  let back := scheduleWord e.w ⟨n, by omega⟩
  let start := decide ((16 + 4 * n) % 16 = 0)
  let t := if start then addRcon (subWord (rotWord prev)) e.rc else prev
  let new := xorBytes t back
  { w := (((e.w.set (16 + 4 * n) new[0]).set (16 + 4 * n + 1) new[1]).set
      (16 + 4 * n + 2) new[2]).set (16 + 4 * n + 3) new[3]
    rc := if start then xtime e.rc else e.rc }

/-- R122, R123: the expansion before its loop. The bytes after the root key are filled by the loop
before anything reads them. -/
def expandStart (k : Block) : Expansion :=
  { w := Vector.ofFn fun j : Fin 176 => if h : j.val < 16 then k[j.val] else 0, rc := 0x01 }

/-- R124: the expansion after the first n words of the loop. -/
def expandTo (k : Block) : (n : Nat) → n ≤ 40 → Expansion
  | 0, _ => expandStart k
  | n + 1, h => expandWord n (by omega) (expandTo k n (by omega))

/-- R124: the finished expansion, with the value R128 says it leaves in RCON. It is irreducible so that
no proof unfolds forty iterations unasked; the kernel evaluates it as any other definition. -/
@[irreducible] def expansion (k : Block) : Expansion := expandTo k 40 (by omega)

/-- R124: `expand(K)`. -/
def expand (k : Block) : Schedule := (expansion k).w

/-- R120: `EXPAND k`. RCON is left as the expansion leaves it (log entry 15). -/
def execExpand (k : BitVec 4) (s : State) : Host.Outcome State Fault Refusal :=
  .next (complete (writeSchedule (expand (rootKey k s)) (expansion (rootKey k s)).rc s))

end Sys2Proof.Machine
end

