-- ==== Sys2Proof/Machine/Round.lean ====
section
/-! DEFINITION. The round transform, the final transform, AddRoundKey, and the commands ROUND, FINAL
and ARK (42_round.md R140 to R162); with the separate steps SubBytes, ShiftRows and MixColumns that the
round transform fuses. -/

namespace Sys2Proof.Machine

/-- R140: the four output bytes of one column from its four substituted bytes, by the source's
equations. -/
def mixEquations (a b c d : Byte) : Quad :=
  #v[xtime a ^^^ xtime b ^^^ b ^^^ c ^^^ d,
     a ^^^ xtime b ^^^ xtime c ^^^ c ^^^ d,
     a ^^^ b ^^^ xtime c ^^^ xtime d ^^^ d,
     xtime a ^^^ a ^^^ b ^^^ c ^^^ xtime d]

/-- R140: the output column that starts at byte index `i`, gathered with the row shift, substituted
and mixed. -/
def roundColumn (s : Block) (i : Nat) : Quad :=
  mixEquations (sbox (s[i % 16])) (sbox (s[(i + 5) % 16])) (sbox (s[(i + 10) % 16]))
    (sbox (s[(i + 15) % 16]))

/-- R140: `rt(s)`. -/
def rt (s : Block) : Block :=
  Vector.ofFn fun k : Fin 16 => (roundColumn s (4 * (k.val / 4)))[k.val % 4]

/-- R142: `SubBytes`, each byte through the S-box. -/
def subBytes (s : Block) : Block := Vector.ofFn fun k : Fin 16 => sbox s[k]

/-- R143: `ShiftRows`, row r shifted left by r columns. -/
def shiftRows (s : Block) : Block :=
  Vector.ofFn fun k : Fin 16 => s[(k.val + 4 * (k.val % 4)) % 16]

/-- R144: one column, top to bottom, multiplied by the fixed matrix over GF(2^8). -/
def mixColumn (q : Quad) : Quad :=
  #v[xtime q[0] ^^^ mul3 q[1] ^^^ q[2] ^^^ q[3],
     q[0] ^^^ xtime q[1] ^^^ mul3 q[2] ^^^ q[3],
     q[0] ^^^ q[1] ^^^ xtime q[2] ^^^ mul3 q[3],
     mul3 q[0] ^^^ q[1] ^^^ q[2] ^^^ xtime q[3]]

/-- R21: column c of the state, top to bottom. -/
def stateColumn (s : Block) (c : Fin 4) : Quad :=
  #v[s[4 * c.val], s[4 * c.val + 1], s[4 * c.val + 2], s[4 * c.val + 3]]

/-- R144: `MixColumns`, each column mixed independently of the others. -/
def mixColumns (s : Block) : Block :=
  Vector.ofFn fun k : Fin 16 => (mixColumn (stateColumn s ⟨k.val / 4, by omega⟩))[k.val % 4]

/-- R150: `ft(s)`. -/
def ft (s : Block) : Block :=
  Vector.ofFn fun k : Fin 16 => sbox (s[(k.val + 4 * (k.val % 4)) % 16])

/-- R160: `ark(s, k)`. -/
def ark (s k : Block) : Block := xorBytes s k

/-- R141: `ROUND`. -/
def execRound (s : State) : Host.Outcome State Fault Refusal :=
  .next (complete (writeState (rt s.state) s))

/-- R151: `FINAL`. -/
def execFinal (s : State) : Host.Outcome State Fault Refusal :=
  .next (complete (writeState (ft s.state) s))

/-- R161: `ARK r`. A value of RND that names no round key stops (R75; log entry 13). -/
def execArk (r : BitVec 4) (s : State) : Host.Outcome State Fault Refusal :=
  if h : r.toNat < 11 then
    .next (complete (writeState (ark s.state (roundKey s.ks ⟨r.toNat, h⟩)) s))
  else .fault .noSuchRoundKey

end Sys2Proof.Machine
end

