-- ==== Sys2Proof/Machine/Cipher.lean ====
section
/-! DEFINITION. The cipher function, the orchestrator that computes it phase by phase, and the ENCRYPT
command (43_cipher.md R170 to R175). -/

namespace Sys2Proof.Machine

/-- R170 step 3: the middle rounds r = 1 .. 9. -/
def middleRounds (w : Schedule) (s : Block) : Block :=
  ([1, 2, 3, 4, 5, 6, 7, 8, 9] : List (Fin 11)).foldl (fun t r => ark (rt t) (roundKey w r)) s

/-- R170: `cipher(K, P)`, the ciphertext and the schedule used. -/
def cipher (k p : Block) : Block × Schedule :=
  let w := expand k
  (ark (ft (middleRounds w (ark p (roundKey w 0)))) (roundKey w 10), w)

/-- R172: the phase that follows a phase. -/
def nextPhase : Phase → Phase
  | .idle => .expand
  | .expand => .keyAddition 0
  | .keyAddition r =>
    if r.val < 9 then .roundTransform (r + 1) else if r.val = 9 then .finalTransform else .done
  | .roundTransform r => .keyAddition r
  | .finalTransform => .keyAddition 10
  | .done => .idle

/-- R170, R172: what the orchestrator does in the current phase, for the root key K. The schedule and
the working state are held in KS and STATE. -/
def phaseAction (k : Block) (s : State) : State :=
  match s.phase with
  | .idle => s
  | .expand => writeSchedule (expand k) (expansion k).rc s
  | .keyAddition r => writeState (ark s.state (roundKey s.ks r)) s
  | .roundTransform _ => writeState (rt s.state) s
  | .finalTransform => writeState (ft s.state) s
  | .done => s

/-- R172: the current phase's action, and then the next phase. -/
def advance (k : Block) (s : State) : State :=
  { phaseAction k s with phase := nextPhase s.phase }

/-- R172: n phases in turn. -/
def runPhases (k : Block) : Nat → State → State
  | 0, s => s
  | n + 1, s => advance k (runPhases k n s)

/-- R172: the 24 phases from leaving `Idle` to being `Idle` again, which the engine executes as one
step (log entry 6). -/
def orchestrate (k : Block) (s : State) : State :=
  runPhases k 24 { s with phase := .idle }

/-- R171: `ENCRYPT k`. -/
def execEncrypt (k : BitVec 4) (s : State) : Host.Outcome State Fault Refusal :=
  .next (complete (orchestrate (rootKey k s) s))

end Sys2Proof.Machine
end

