-- ==== Sys2Proof/Machine/Dispatch.lean ====
section
/-! DEFINITION. The meaning of each command, one arm per constructor (30_encoding.md R72). -/

namespace Sys2Proof.Machine

/-- R201: the engine's execution of a command, its pseudocode at completion and the completion bits. -/
def exec (i : Instr) (s : State) : Host.Outcome State Fault Refusal :=
  match i with
  | .sbox x => Sys2Proof.Machine.execSbox x s
  | .mul2 x => Sys2Proof.Machine.execMul2 x s
  | .mul3 x => Sys2Proof.Machine.execMul3 x s
  | .expand k => Sys2Proof.Machine.execExpand k s
  | .round => Sys2Proof.Machine.execRound s
  | .final => Sys2Proof.Machine.execFinal s
  | .ark r => Sys2Proof.Machine.execArk r s
  | .encrypt k => Sys2Proof.Machine.execEncrypt k s

end Sys2Proof.Machine
end

