-- ==== Sys2Proof/Machine/Window.lean ====
section
/-! DEFINITION. The register window: its map, the acceptance of a command word at a CMD write, and the
host's reads and writes (20_memory.md R50 to R59, 30_encoding.md R80, 60_exceptions.md R209). -/

namespace Sys2Proof.Machine

/-- R51: the registers of the window. -/
inductive Reg where
  | cmd
  | status
  | result
  | state (j : Fin 4)
  | ks (n : Fin 44)
  deriving DecidableEq, Repr

/-- R50: the offset in the window of a bus address, if the core decodes that address. -/
def windowOffset (addr : Nat) : Option Nat :=
  if Config.base ≤ addr ∧ addr < Config.base + 0x100 then some (addr - Config.base) else none

/-- R51, R54: the register at an offset; an unmapped offset, or one that is not a multiple of 4, names
none. -/
def regAt (off : Nat) : Option Reg :=
  if off % 4 ≠ 0 then none
  else if off = 0x000 then some .cmd
  else if off = 0x004 then some .status
  else if off = 0x008 then some .result
  else if h : 0x010 ≤ off ∧ off < 0x020 then some (.state ⟨(off - 0x010) / 4, by omega⟩)
  else if h : 0x040 ≤ off ∧ off < 0x0F0 then some (.ks ⟨(off - 0x040) / 4, by omega⟩)
  else none

/-- R55, R240: a read of a data register: a hazard while the core is busy, else its content, recorded
as `Unwritten` where its mark is clear (log entry 9). -/
def readData (mark : Bool) (v : Word) (s : State) : State :=
  if s.busy then hazardReply s else reply v (raiseUnwrittenIf (!mark) s)

/-- R55: a legal read of a register. -/
def readReg (r : Reg) (s : State) : State :=
  match r with
  | .cmd => reply 0 s
  | .status => reply (statusWord s) s
  | .result => readData s.resW (s.result.setWidth 32) s
  | .state j => readData s.stateW[j] (stateReg s j) s
  | .ks n => readData s.ksW (ksReg s n) s

/-- R55, R57: a host read at an offset of the window. -/
def hostRead (off size : Nat) (s : State) : State :=
  match (if size = 4 then regAt off else none) with
  | some r => readReg r s
  | none => reply 0 (raiseError .badAccess s)

/-- R80: a host write of `v` to CMD. -/
def presentCommand (v : Word) (s : State) : State :=
  if s.busy then raiseError .cmdBusy s
  else
    match decode v with
    | .error _ => raiseError .illegalCmd s
    | .ok i =>
      accept v
        (raiseUnwrittenIf (readsKs i && !s.ksW)
          (raiseUnwrittenIf (readsState i && !stateWritten s) s))

/-- R56, R240: a host write to STATEj; while the core is busy it is a hazard and STATE is unchanged
(log entry 8). -/
def writeStateReg (j : Fin 4) (v : Word) (s : State) : State :=
  if s.busy then raiseModelFault .hazard s else writeColumn j v s

/-- R56, R57: a host write at an offset of the window. -/
def hostWrite (off size : Nat) (v : Word) (s : State) : State :=
  match (if size = 4 then regAt off else none) with
  | some .cmd => presentCommand v s
  | some (.state j) => writeStateReg j v s
  | some .status => raiseError .badAccess s
  | some .result => raiseError .badAccess s
  | some (.ks _) => raiseError .badAccess s
  | none => raiseError .badAccess s

/-- R50: one access of the host. An address outside the window is not the core's (log entry 3). -/
def hostAccess (a : Access) (s : State) : State :=
  match a with
  | .read addr size =>
    match windowOffset addr with
    | some off => hostRead off size s
    | none => s
  | .write addr size v =>
    match windowOffset addr with
    | some off => hostWrite off size v s
    | none => s

end Sys2Proof.Machine
end

