-- ==== Sys2Proof/Machine/Step.lean ====
section
/-! DEFINITION. One step of the machine: the next event of the agenda, or, when the agenda is empty,
the engine (60_exceptions.md R200, R201; log entry 4). -/

namespace Sys2Proof.Machine

/-- R201: the engine's turn. It is enabled exactly when PENDING is not empty; a turn while it is not
enabled changes nothing (R217; log entry 16). -/
def engineTurn (s : State) : Host.Outcome State Fault Refusal :=
  match s.pending with
  | none => .next s
  | some v =>
    match decode v with
    | .ok i => exec i s
    | .error _ => .fault .pendingIllegal

/-- R200, R201, R230: one step. -/
def step (s : State) : Host.Outcome State Fault Refusal :=
  match s.agenda with
  | [] => engineTurn s
  | .engine :: rest => engineTurn { s with agenda := rest }
  | .host a :: rest => .next (hostAccess a { s with agenda := rest })
  | .reset :: rest => .next (resetCore { s with agenda := rest })

/-- The state in which the command word `w` has been accepted and the engine moves next. The core
fetches nothing (R63): its next command is the word in PENDING, so this stands for the acceptance of
R80 (log entry 5). With an empty agenda the engine moves next already. -/
def State.withFetchWord (s : State) (nbits w : Nat) : State :=
  { accept (tableWord nbits w) s with
    agenda := if s.agenda = [] then [] else .engine :: s.agenda }

end Sys2Proof.Machine
end

