-- ==== Sys2Proof/Safety.lean ====
section
/-! DEFINITION. The words claims are written in: the invariant of every state a run reaches, which
command the engine runs next, and which accesses a host that obeys the spec's rules makes. -/

namespace Sys2Proof.Machine

/-- What holds of every state a run reaches: BUSY is 1 exactly when PENDING is not empty (R35); DONE is
0 while a command is pending (R32); PENDING holds only a legal word (R80); PHASE is Idle between steps
(R36, R172); ERRCODE is NONE exactly when ERR is 0 (R33, R204); and a latched error stands in the fault
record (R205). -/
abbrev State.Inv (s : State) : Prop :=
  s.busy = s.pending.isSome
  ∧ (s.busy = true → s.done = false)
  ∧ s.pending.all legal = true
  ∧ s.phase = .idle
  ∧ (s.err = false ↔ s.errcode = .none)
  ∧ (s.err = true → FaultRecord.hardwareError s.errcode ∈ s.faults)

/-- R201: the engine moves next, as the agenda says or because the agenda is empty. -/
abbrev State.EngineNext (s : State) : Prop := s.agenda = [] ∨ s.agenda.head? = some .engine

/-- R201: the next step is the engine's execution of the command `i`. -/
abbrev State.Runs (s : State) (i : Instr) : Prop :=
  s.EngineNext ∧ s.pending.map decode = some (.ok i)

/-- R230: the next event is not an assertion of the reset input. -/
abbrev State.NoReset (s : State) : Prop := s.agenda.head? ≠ some .reset

/-- R207: a run that has met no hardware error and no model fault. -/
abbrev State.Clean (s : State) : Prop := s.faults = []

/-- R79, R233: the data a command reads has been written. -/
def inputsWritten (i : Instr) (s : State) : Bool :=
  (!readsState i || stateWritten s) && (!readsKs i || s.ksW)

/-- R233, R240: a read the host may make of a register. -/
def readAllowed (r : Reg) (s : State) : Bool :=
  match r with
  | .cmd => true
  | .status => true
  | .result => !s.busy && s.resW
  | .state j => !s.busy && s.stateW[j]
  | .ks _ => !s.busy && s.ksW

/-- R54, R233, R240: a write the host may make to a register. -/
def writeAllowed (r : Reg) (v : Word) (s : State) : Bool :=
  match r with
  | .cmd =>
    !s.busy && match decode v with
      | .ok i => inputsWritten i s
      | .error _ => false
  | .status => false
  | .result => false
  | .state _ => !s.busy
  | .ks _ => false

/-- R54, R233, R240, R241: an access of a host that obeys the spec's rules; one outside the window is
not the core's. -/
def accessAllowed (a : Access) (s : State) : Bool :=
  match a with
  | .read addr size =>
    match windowOffset addr with
    | none => true
    | some off => size == 4 && (regAt off).any (readAllowed · s)
  | .write addr size v =>
    match windowOffset addr with
    | none => true
    | some off => size == 4 && (regAt off).any (writeAllowed · v s)

/-- R233, R240, R241: the next event is not an access that breaks the spec's rules for the host. -/
def State.HostObeys (s : State) : Bool :=
  match s.agenda with
  | .host a :: rest => accessAllowed a { s with agenda := rest }
  | .engine :: _ => true
  | .reset :: _ => true
  | [] => true

/-- The meanings of a list of commands in turn, stopping at the first that does not answer a next
state. -/
def execAll : List Instr → State → Host.Outcome State Fault Refusal
  | [], s => .next s
  | i :: rest, s =>
    match exec i s with
    | .next t => execAll rest t
    | o => o

/-- n steps in turn, stopping at the first that does not answer a next state. -/
def stepMany : Nat → State → Host.Outcome State Fault Refusal
  | 0, s => .next s
  | n + 1, s =>
    match step s with
    | .next t => stepMany n t
    | o => o

end Sys2Proof.Machine
end

