-- ==== Sys2Proof/Certificates/Slice0/Obligations.lean ====
section
/-! DEFINITION. The statements about the core, each from numbered rules of the spec. -/

open Sys2Proof Sys2Proof.Machine

/-! ## Encoding (30_encoding.md) -/

/-- V10, V70, R81: words written out from the encoding of each command decode to it, and the words the
spec's vectors call illegal are refused. -/
def Obligations.SpecWordsDecode : Prop :=
  decode 0x00FF0001 = .ok (.sbox 0xFF) ∧ decode 0x00570002 = .ok (.mul2 0x57)
  ∧ decode 0x00800003 = .ok (.mul3 0x80) ∧ decode 0x00000014 = .ok (.expand 1)
  ∧ decode 0x00000005 = .ok .round ∧ decode 0x00000006 = .ok .final
  ∧ decode 0x00000A07 = .ok (.ark 10) ∧ decode 0x000000F8 = .ok (.encrypt 15)
  ∧ decode 0x00000000 = .error .opcode ∧ decode 0x00000009 = .error .opcode
  ∧ decode 0x0000F001 = .error .unusedField ∧ decode 0x01000001 = .error .unusedField
  ∧ decode 0x00000B07 = .error .roundKey ∧ decode 0x00000F07 = .error .roundKey

/-- R81: the word of each command, as the assembler table writes it. -/
def Obligations.EncodingsAreTheSpecSums : Prop :=
  (∀ x : Byte, encode (.sbox x) = 0x00000001 + (x.setWidth 32 <<< 16))
  ∧ (∀ x : Byte, encode (.mul2 x) = 0x00000002 + (x.setWidth 32 <<< 16))
  ∧ (∀ x : Byte, encode (.mul3 x) = 0x00000003 + (x.setWidth 32 <<< 16))
  ∧ (∀ k : BitVec 4, encode (.expand k) = 0x00000004 + (k.setWidth 32 <<< 4))
  ∧ encode .round = 0x00000005
  ∧ encode .final = 0x00000006
  ∧ (∀ r : BitVec 4, encode (.ark r) = 0x00000007 + (r.setWidth 32 <<< 8))
  ∧ (∀ k : BitVec 4, encode (.encrypt k) = 0x00000008 + (k.setWidth 32 <<< 4))

/-- R70 to R76: decoding the word of a well-formed command gives it back, for every operand. -/
def Obligations.DecodeOfEncode : Prop :=
  ∀ i : Instr, WellFormed i → decode (encode i) = .ok i

/-- R71, R73: a word that decodes is the word of the command it decodes to, which is well-formed, so
no two words decode to one command and no bit of a word is ignored. -/
def Obligations.EncodeOfDecode : Prop :=
  ∀ (v : Word) (i : Instr), decode v = .ok i → WellFormed i ∧ encode i = v

/-- R78: a word decodes to a command exactly when the decoding predicate holds of it. -/
def Obligations.DecodesExactlyTheLegalWords : Prop :=
  ∀ v : Word, (∃ i, decode v = .ok i) ↔
    ((v.extractLsb' 0 4 ∈ [(0x1 : BitVec 4), 0x2, 0x3] ∧ v &&& 0xFF00FFF0 = 0)
    ∨ (v.extractLsb' 0 4 ∈ [(0x4 : BitVec 4), 0x8] ∧ v &&& 0xFFFFFF00 = 0)
    ∨ (v.extractLsb' 0 4 = (0x7 : BitVec 4) ∧ v &&& 0xFFFFF0F0 = 0 ∧ v.extractLsb' 8 4 ≤ (10 : BitVec 4))
    ∨ (v.extractLsb' 0 4 ∈ [(0x5 : BitVec 4), 0x6] ∧ v &&& 0xFFFFFFF0 = 0))

/-- R77: the reason a word is refused for: its opcode; ARK with RND above 10 and no other fault; or
else a field that the command does not use. -/
def Obligations.RefusalReasons : Prop :=
  ∀ v : Word,
    (decode v = .error .opcode ↔
      v.extractLsb' 0 4 = (0x0 : BitVec 4) ∨ (0x9 : BitVec 4) ≤ v.extractLsb' 0 4)
    ∧ (decode v = .error .roundKey ↔
      v.extractLsb' 0 4 = (0x7 : BitVec 4) ∧ v &&& 0xFFFFF0F0 = 0 ∧ (10 : BitVec 4) < v.extractLsb' 8 4)

/-! ## The S-box and the multiplier (40_sbox_gf.md) -/

/-- R101: the table is a permutation of 0..255 and has no fixed point. -/
def Obligations.SboxPermutationNoFixedPoint : Prop :=
  (∀ x y : Byte, sbox x = sbox y → x = y) ∧ (∀ y : Byte, ∃ x : Byte, sbox x = y)
  ∧ ∀ x : Byte, sbox x ≠ x

/-- R104, R108: doubling is the doubled number, reduced by the modulus 0x11B where it exceeds a byte. -/
def Obligations.XtimeIsReducedDoubling : Prop :=
  ∀ x : Byte, (xtime x).toNat =
    if 2 * x.toNat < 256 then 2 * x.toNat else (2 * x.toNat) ^^^ 0x11B

/-- R108: doubling and multiplication by 3 are linear over XOR. -/
def Obligations.MultipliersAreLinear : Prop :=
  ∀ a b : Byte, xtime (a ^^^ b) = xtime a ^^^ xtime b ∧ mul3 (a ^^^ b) = mul3 a ^^^ mul3 b

/-- R101, R102, V10: `S(x)` is the entry of R101's table in row x[7:4] and column x[3:0]; each row is
written here as one number, column 0 its most significant byte. `SBOX x` completes in every state, leaves
that entry in RESULT, sets RES_W and the completion bits, and changes nothing else. -/
def Obligations.SboxCompletes : Prop :=
  let rows : Vector (BitVec 128) 16 := #v[
      0x637c777bf26b6fc53001672bfed7ab76, 0xca82c97dfa5947f0add4a2af9ca472c0,
      0xb7fd9326363ff7cc34a5e5f171d83115, 0x04c723c31896059a071280e2eb27b275,
      0x09832c1a1b6e5aa0523bd6b329e32f84, 0x53d100ed20fcb15b6acbbe394a4c58cf,
      0xd0efaafb434d338545f9027f503c9fa8, 0x51a3408f929d38f5bcb6da2110fff3d2,
      0xcd0c13ec5f974417c4a77e3d645d1973, 0x60814fdc222a908846eeb814de5e0bdb,
      0xe0323a0a4906245cc2d3ac629195e479, 0xe7c8376d8dd54ea96c56f4ea657aae08,
      0xba78252e1ca6b4c6e8dd741f4bbd8b8a, 0x703eb5664803f60e613557b986c11d9e,
      0xe1f8981169d98e949b1e87e9ce5528df, 0x8ca1890dbfe6426841992d0fb054bb16]
  let entry := fun x : Byte => (rows[x.toNat / 16]).extractLsb' (8 * (15 - x.toNat % 16)) 8
  (∀ x : Byte, sbox x = entry x)
  ∧ (∀ (x : Byte) (s : State), exec (.sbox x) s = .next { s with
    result := entry x, resW := true
    pending := none, busy := false, done := true })
  ∧ sbox 0x00 = 0x63 ∧ sbox 0x01 = 0x7C ∧ sbox 0x10 = 0xCA ∧ sbox 0x52 = 0x00 ∧ sbox 0x53 = 0xED
  ∧ sbox 0x80 = 0xCD ∧ sbox 0xFF = 0x16

/-- R105: `MUL2 x` completes in every state, leaves the doubling of x in RESULT, sets RES_W and the
completion bits, and changes nothing else. -/
def Obligations.Mul2Completes : Prop :=
  ∀ (x : Byte) (s : State), exec (.mul2 x) s = .next { s with
    result := if x.getLsbD 7 = true then (x <<< 1) ^^^ 0x1B else x <<< 1, resW := true
    pending := none, busy := false, done := true }

/-- R106, R107: `MUL3 x` completes in every state, leaves the doubling of x XOR x in RESULT, sets RES_W
and the completion bits, and changes nothing else. -/
def Obligations.Mul3Completes : Prop :=
  ∀ (x : Byte) (s : State), exec (.mul3 x) s = .next { s with
    result := (if x.getLsbD 7 = true then (x <<< 1) ^^^ 0x1B else x <<< 1) ^^^ x, resW := true
    pending := none, busy := false, done := true }

/-! ## The key scheduler (41_key_schedule.md) -/

/-- R122: round key 0 of a schedule is the root key, byte for byte. -/
def Obligations.ScheduleStartsWithRootKey : Prop :=
  ∀ k : Block, roundKey (expand k) 0 = k

/-- R132, R128: the words of a schedule. Words 0 .. 3 are those of the root key; every later word n + 4
is the word four places back XOR the previous word, which at a new block is first rotated, substituted
and, in its first byte only, combined with the block's round constant. -/
def Obligations.ScheduleWordRecurrence : Prop :=
  ∀ k : Block,
    let rc : Vector Byte 10 := #v[0x01, 0x02, 0x04, 0x08, 0x10, 0x20, 0x40, 0x80, 0x1B, 0x36]
    let w := fun m : Fin 44 => scheduleWord (expand k) m
    (∀ n : Fin 4, w ⟨n.val, by omega⟩
      = #v[k[4 * n.val], k[4 * n.val + 1], k[4 * n.val + 2], k[4 * n.val + 3]])
    ∧ ∀ (n : Nat) (h : n < 40),
      let p := w ⟨n + 3, by omega⟩
      w ⟨n + 4, by omega⟩ = xorBytes (w ⟨n, by omega⟩)
        (if n % 4 = 0 then #v[sbox p[1] ^^^ rc[n / 4], sbox p[2], sbox p[3], sbox p[0]] else p)

/-- R128: after an expansion RCON holds 0x6C, whatever the key. -/
def Obligations.ExpansionLeavesRcon : Prop :=
  ∀ k : Block, (expansion k).rc = 0x6C

/-- R120: `EXPAND k` completes in every state, leaves the expansion of the selected root key in all 176
bytes of KS, sets KS_W and the completion bits, and changes nothing else but RCON, which R20 lists and
nothing reads: that it holds 0x6C afterwards is the model's reading (log entry 15). -/
def Obligations.ExpandCompletes : Prop :=
  ∀ (k : BitVec 4) (s : State), exec (.expand k) s = .next { s with
    ks := expand (if k = 0 then s.key0 else s.key1), ksW := true, rcon := 0x6C
    pending := none, busy := false, done := true }

/-- R74: key index 0 selects KEY0 and every other index KEY1, for EXPAND and ENCRYPT alike, and no
index makes either illegal. -/
def Obligations.KeyIndexSelectsRootKey : Prop :=
  (∀ s : State, rootKey 0 s = s.key0)
  ∧ (∀ (k : BitVec 4) (s : State), k ≠ 0 → rootKey k s = s.key1
      ∧ exec (.expand k) s = exec (.expand 1) s ∧ exec (.encrypt k) s = exec (.encrypt 1) s)
  ∧ (∀ k : BitVec 4, legal (0x00000004 + (k.setWidth 32 <<< 4)) = true
      ∧ legal (0x00000008 + (k.setWidth 32 <<< 4)) = true)

/-! ## The round transform, the final round and AddRoundKey (42_round.md) -/

/-- R140, R141: `ROUND` completes in every state; with a, b, c, d the substituted bytes gathered for
the column that starts at byte i, each output byte is the source's combination of them; it sets STATE_W
and the completion bits and changes nothing else. -/
def Obligations.RoundCompletes : Prop :=
  ∀ s : State, ∃ out : Block,
    exec .round s = .next { s with
      state := out, stateW := #v[true, true, true, true]
      pending := none, busy := false, done := true }
    ∧ ∀ (i : Fin 16), i.val % 4 = 0 →
      let a := sbox s.state[i.val]
      let b := sbox s.state[(i.val + 5) % 16]
      let c := sbox s.state[(i.val + 10) % 16]
      let d := sbox s.state[(i.val + 15) % 16]
      out[i.val] = xtime a ^^^ xtime b ^^^ b ^^^ c ^^^ d
      ∧ out[(i.val + 1) % 16] = a ^^^ xtime b ^^^ xtime c ^^^ c ^^^ d
      ∧ out[(i.val + 2) % 16] = a ^^^ b ^^^ xtime c ^^^ xtime d ^^^ d
      ∧ out[(i.val + 3) % 16] = xtime a ^^^ a ^^^ b ^^^ c ^^^ xtime d

/-- R142: the fused round transform is SubBytes, then ShiftRows, then MixColumns, for every state. -/
def Obligations.RoundIsMixOfShiftOfSub : Prop :=
  ∀ s : Block, rt s = mixColumns (shiftRows (subBytes s))

/-- R143: ShiftRows shifts row r of the state left by r columns. -/
def Obligations.ShiftRowsShiftsRowsLeft : Prop :=
  ∀ (s : Block) (r c : Fin 4),
    (shiftRows s)[r.val + 4 * c.val] = s[r.val + 4 * ((c.val + r.val) % 4)]

/-- R144: MixColumns multiplies each column by the matrix with rows 02 03 01 01, 01 02 03 01, 01 01 02
03, 03 01 01 02, where 2 is `xtime` and 3 is `mul3`, each column alone. -/
def Obligations.MixColumnsIsTheMatrix : Prop :=
  ∀ (s : Block) (c : Fin 4),
    let a := s[4 * c.val]
    let b := s[4 * c.val + 1]
    let g := s[4 * c.val + 2]
    let d := s[4 * c.val + 3]
    (mixColumns s)[4 * c.val] = xtime a ^^^ (xtime b ^^^ b) ^^^ g ^^^ d
    ∧ (mixColumns s)[4 * c.val + 1] = a ^^^ xtime b ^^^ (xtime g ^^^ g) ^^^ d
    ∧ (mixColumns s)[4 * c.val + 2] = a ^^^ b ^^^ xtime g ^^^ (xtime d ^^^ d)
    ∧ (mixColumns s)[4 * c.val + 3] = (xtime a ^^^ a) ^^^ b ^^^ g ^^^ xtime d

/-- R150, R151: `FINAL` completes in every state; byte k of the result is the substitution of byte
(k + 4(k mod 4)) mod 16; it sets STATE_W and the completion bits and changes nothing else. -/
def Obligations.FinalCompletes : Prop :=
  ∀ s : State, ∃ out : Block,
    exec .final s = .next { s with
      state := out, stateW := #v[true, true, true, true]
      pending := none, busy := false, done := true }
    ∧ ∀ k : Fin 16, out[k.val] = sbox (s.state[(k.val + 4 * (k.val % 4)) % 16])

/-- R150: the final transform is ShiftRows of SubBytes, and in the other order too. -/
def Obligations.FinalIsShiftOfSub : Prop :=
  ∀ s : Block, ft s = shiftRows (subBytes s) ∧ ft s = subBytes (shiftRows s)

/-- R160, R161: `ARK r` with r in 0..10 completes in every state; byte j of the result is byte j of
STATE XOR byte 16r + j of KS; it sets STATE_W and the completion bits and changes nothing else. -/
def Obligations.ArkCompletes : Prop :=
  ∀ (r : BitVec 4) (s : State) (h : r.toNat ≤ 10), ∃ out : Block,
    exec (.ark r) s = .next { s with
      state := out, stateW := #v[true, true, true, true]
      pending := none, busy := false, done := true }
    ∧ ∀ j : Fin 16, out[j.val] = s.state[j.val] ^^^ s.ks[16 * r.toNat + j.val]

/-- R75: RND 11..15 names no round key. No legal command holds it; the model stops where exec is given
one (log entry 13). -/
def Obligations.ArkStopsOnUnnamedRoundKey : Prop :=
  ∀ (r : BitVec 4) (s : State), 10 < r.toNat → exec (.ark r) s = .fault .noSuchRoundKey

/-- R161: `ARK r` twice with the same r and no command between restores STATE. -/
def Obligations.ArkTwiceRestoresState : Prop :=
  ∀ (r : BitVec 4) (s : State), r.toNat ≤ 10 →
    ∃ t u, exec (.ark r) s = .next t ∧ exec (.ark r) t = .next u ∧ u.state = s.state

/-- R243: `ARK r` after an `EXPAND k` or an `ENCRYPT k` adds round key r of that command's root key. -/
def Obligations.ArkUsesTheLastSchedule : Prop :=
  ∀ (k r : BitVec 4) (s t u : State) (h : r.toNat < 11),
    (exec (.expand k) s = .next t ∨ exec (.encrypt k) s = .next t) → exec (.ark r) t = .next u →
    ∀ j : Fin 16,
      u.state[j.val] = t.state[j.val] ^^^ (expand (rootKey k s))[16 * r.toNat + j.val]

/-! ## The orchestrator (43_cipher.md) -/

/-- R170, R171, R172: `ENCRYPT k`, which the orchestrator computes phase by phase, completes in every
state with the ciphertext of the cipher function in STATE and the schedule of this call in KS, with the
marks and the completion bits set and PHASE Idle, and changes nothing else but RCON, which nothing reads
(log entry 15). -/
def Obligations.EncryptComputesTheCipher : Prop :=
  ∀ (k : BitVec 4) (s : State),
    let c := cipher (if k = 0 then s.key0 else s.key1) s.state
    exec (.encrypt k) s = .next { s with
      state := c.1, stateW := #v[true, true, true, true], ks := c.2, ksW := true
      rcon := 0x6C, phase := .idle, pending := none, busy := false, done := true }

/-- R175, R172: whatever the key and the state, PHASE takes the values of R172 in their order: one
expansion, 11 AddRoundKey steps, 9 round transforms and 1 final transform. -/
def Obligations.PhaseSequenceIsFixed : Prop :=
  ∀ (k : Block) (s : State),
    let phases := (List.range 25).map fun n => (runPhases k n { s with phase := .idle }).phase
    phases = [.idle, .expand, .keyAddition 0,
      .roundTransform 1, .keyAddition 1, .roundTransform 2, .keyAddition 2,
      .roundTransform 3, .keyAddition 3, .roundTransform 4, .keyAddition 4,
      .roundTransform 5, .keyAddition 5, .roundTransform 6, .keyAddition 6,
      .roundTransform 7, .keyAddition 7, .roundTransform 8, .keyAddition 8,
      .roundTransform 9, .keyAddition 9, .finalTransform, .keyAddition 10, .done, .idle]

/-- R173, R174: ENCRYPT is a function of the selected root key and STATE alone: two states that agree
on these, and on nothing else, have the same ciphertext and the same schedule after it. -/
def Obligations.EncryptDependsOnKeyAndStateOnly : Prop :=
  ∀ (k l : BitVec 4) (s t s' t' : State),
    rootKey k s = rootKey l t → s.state = t.state →
    exec (.encrypt k) s = .next s' → exec (.encrypt l) t = .next t' →
    s'.state = t'.state ∧ s'.ks = t'.ks

/-- R170, R3: ENCRYPT is the composition of the component commands: EXPAND k, ARK 0, nine times ROUND
and ARK r, FINAL and ARK 10 leave the same state. PHASE, which the component commands do not move, is
Idle in the state they start from. -/
def Obligations.EncryptEqualsItsComponents : Prop :=
  ∀ (k : BitVec 4) (s : State), s.phase = .idle →
    exec (.encrypt k) s =
      execAll ([.expand k, .ark 0]
        ++ ([1, 2, 3, 4, 5, 6, 7, 8, 9] : List (BitVec 4)).flatMap (fun r => [.round, .ark r])
        ++ [.final, .ark 10]) s

/-- R170 with R101, R140, R150, R160: for one root key, different plaintexts have different
ciphertexts. -/
def Obligations.CipherIsInjective : Prop :=
  ∀ k p q : Block, (cipher k p).1 = (cipher k q).1 → p = q

/-! ## Every command -/

/-- R201, R202: whatever the command, if it answers a next state then PENDING is empty, BUSY is 0 and
DONE is 1, and ERR, ERRCODE, the keys, the fault record, and what the host has read or will do are
unchanged. -/
def Obligations.CommandsFrame : Prop :=
  ∀ (i : Instr) (s t : State), exec i s = .next t →
    t.pending = none ∧ t.busy = false ∧ t.done = true
    ∧ t.err = s.err ∧ t.errcode = s.errcode ∧ t.key0 = s.key0 ∧ t.key1 = s.key1
    ∧ t.faults = s.faults ∧ t.agenda = s.agenda ∧ t.rdata = s.rdata ∧ t.freeCount = s.freeCount

/-! ## STATUS, the window and the errors (10_state.md, 20_memory.md, 60_exceptions.md) -/

/-- R30, R34, R204: the fields of the STATUS word, with the code of each error in bits [7:4], the
hardwired RETCODE and the reserved bits. R41: it reads zero after reset. R57, R205: a host write to
STATUS is a bad access. -/
def Obligations.StatusRegister : Prop :=
  (∀ s : State,
    let v := statusWord s
    v.getLsbD 0 = s.busy ∧ v.getLsbD 1 = s.done ∧ v.getLsbD 2 = s.err ∧ v.getLsbD 3 = false
    ∧ (s.errcode = .none → v.extractLsb' 4 4 = (0x0 : BitVec 4))
    ∧ (s.errcode = .illegalCmd → v.extractLsb' 4 4 = (0x1 : BitVec 4))
    ∧ (s.errcode = .cmdBusy → v.extractLsb' 4 4 = (0x2 : BitVec 4))
    ∧ (s.errcode = .badAccess → v.extractLsb' 4 4 = (0x3 : BitVec 4))
    ∧ v.extractLsb' 8 8 = 0#8 ∧ v.extractLsb' 16 16 = 0#16)
  ∧ statusWord State.reset = 0
  ∧ ∀ (v : Word) (s : State), hostWrite 0x004 4 v s = { s with
      err := true, errcode := if s.err then s.errcode else .badAccess
      faults := s.faults ++ [.hardwareError .badAccess] }

/-- R29, R55, R240: at any time, busy or not, a read of CMD returns 0 and a read of STATUS returns the
STATUS word; nothing else changes. -/
def Obligations.ControlReads : Prop :=
  ∀ (s : State) (rest : List Event),
    step { s with agenda := .host (.read (Config.base + 0x000) 4) :: rest }
      = .next { s with agenda := rest, rdata := some 0 }
    ∧ step { s with agenda := .host (.read (Config.base + 0x004) 4) :: rest }
      = .next { s with agenda := rest, rdata := some (statusWord s) }

/-- R52, R55, R28: while the core is not busy, a read of STATEj, KSn or RESULT returns the register's
bytes, the byte at the lowest offset in bits [7:0], and changes nothing else, but that a read of data
whose mark is clear is recorded as the model fault Unwritten. -/
def Obligations.DataReads : Prop :=
  ∀ (s : State) (rest : List Event),
    let mark := fun w : Bool => if w then [] else [FaultRecord.modelFault .unwritten]
    (∀ j : Fin 4, ∃ v : Word,
      step { s with busy := false, agenda := .host (.read (Config.base + (0x010 + 4 * j.val)) 4) :: rest }
        = .next { s with busy := false, agenda := rest, rdata := some v
                         faults := s.faults ++ mark s.stateW[j] }
      ∧ ∀ m : Fin 4, v.extractLsb' (8 * m.val) 8 = s.state[4 * j.val + m.val])
    ∧ (∀ n : Fin 44, ∃ v : Word,
      step { s with busy := false, agenda := .host (.read (Config.base + (0x040 + 4 * n.val)) 4) :: rest }
        = .next { s with busy := false, agenda := rest, rdata := some v
                         faults := s.faults ++ mark s.ksW }
      ∧ ∀ m : Fin 4, v.extractLsb' (8 * m.val) 8 = s.ks[4 * n.val + m.val])
    ∧ (∃ v : Word,
      step { s with busy := false, agenda := .host (.read (Config.base + 0x008) 4) :: rest }
        = .next { s with busy := false, agenda := rest, rdata := some v
                         faults := s.faults ++ mark s.resW }
      ∧ v.toNat = s.result.toNat)

/-- R240, R55, R56, R208: while the core is busy, an access to STATE, RESULT or KS is recorded as the
model fault Hazard. A read returns some word, a free value of which nothing is said; a STATE write
leaves STATE as it was; nothing else changes. -/
def Obligations.BusyDataAccessIsHazard : Prop :=
  ∀ (s : State) (rest : List Event) (off : Nat),
    (off = 0x008 ∨ (∃ j : Fin 4, off = 0x010 + 4 * j.val) ∨ ∃ n : Fin 44, off = 0x040 + 4 * n.val) →
    (∃ w : Word,
      step { s with busy := true, agenda := .host (.read (Config.base + off) 4) :: rest }
        = .next { s with busy := true, agenda := rest, rdata := some w
                         freeCount := s.freeCount + 1
                         faults := s.faults ++ [.modelFault .hazard] })
    ∧ ∀ (v : Word) (j : Fin 4), off = 0x010 + 4 * j.val →
      step { s with busy := true, agenda := .host (.write (Config.base + off) 4 v) :: rest }
        = .next { s with busy := true, agenda := rest
                         faults := s.faults ++ [.modelFault .hazard] }

/-- R56, R52: while the core is not busy, a host write to STATEj puts byte m of the word into
STATE[4j + m], leaves every other byte of STATE, sets the mark of column j, and changes nothing else. -/
def Obligations.StateWrites : Prop :=
  ∀ (s : State) (rest : List Event) (j : Fin 4) (v : Word), ∃ (b : Block) (w : Vector Bool 4),
    step { s with busy := false, agenda := .host (.write (Config.base + (0x010 + 4 * j.val)) 4 v) :: rest }
      = .next { s with busy := false, agenda := rest, state := b, stateW := w }
    ∧ (∀ m : Fin 4, b[4 * j.val + m.val] = v.extractLsb' (8 * m.val) 8)
    ∧ (∀ k : Fin 16, k.val / 4 ≠ j.val → b[k] = s.state[k])
    ∧ w[j] = true ∧ ∀ i : Fin 4, i ≠ j → w[i] = s.stateW[i]

/-- R52, R55, R56: a host read of STATEj right after a host write of STATEj returns the word written,
and is not faulted. -/
def Obligations.StateWriteThenRead : Prop :=
  ∀ (s : State) (rest : List Event) (j : Fin 4) (v : Word), ∃ t u : State,
    let addr := Config.base + (0x010 + 4 * j.val)
    step { s with busy := false, agenda := .host (.write addr 4 v) :: .host (.read addr 4) :: rest }
      = .next t
    ∧ step t = .next u ∧ u.rdata = some v ∧ u.faults = s.faults

/-- R57, R54, R205: any access in the window that is not a 32-bit access at a multiple of 4 naming a
register in a direction it allows raises BAD_ACCESS: the error is recorded, latched in ERR and ERRCODE
if it is the first since reset, a bad read returns 0, and nothing else changes. -/
def Obligations.BadAccessRaisesError : Prop :=
  ∀ (s : State) (rest : List Event) (off size : Nat), off < 0x100 →
    let code := if s.err then s.errcode else .badAccess
    let readable := size = 4 ∧ off % 4 = 0 ∧ (off = 0 ∨ off = 4 ∨ off = 8
      ∨ (0x10 ≤ off ∧ off < 0x20) ∨ (0x40 ≤ off ∧ off < 0xF0))
    let writable := size = 4 ∧ off % 4 = 0 ∧ (off = 0 ∨ (0x10 ≤ off ∧ off < 0x20))
    (¬ readable →
      step { s with agenda := .host (.read (Config.base + off) size) :: rest }
        = .next { s with agenda := rest, err := true, errcode := code, rdata := some 0
                         faults := s.faults ++ [.hardwareError .badAccess] })
    ∧ (¬ writable → ∀ v : Word,
      step { s with agenda := .host (.write (Config.base + off) size v) :: rest }
        = .next { s with agenda := rest, err := true, errcode := code
                         faults := s.faults ++ [.hardwareError .badAccess] })

/-- R50, R9: an access to an address outside the 0x100 bytes at BASE does not reach the core; that it
changes nothing is the model's reading (log entry 3). -/
def Obligations.OutsideTheWindowNothingChanges : Prop :=
  ∀ (s : State) (rest : List Event) (addr size : Nat) (v : Word),
    (addr < Config.base ∨ Config.base + 0x100 ≤ addr) →
    step { s with agenda := .host (.read addr size) :: rest } = .next { s with agenda := rest }
    ∧ step { s with agenda := .host (.write addr size v) :: rest } = .next { s with agenda := rest }

/-- R59: no read changes a hardware-visible item other than the error latch, which only a bad access
moves; a read of a register at its offset does not move that either. Two reads of one register in a row
return the same word, whether the core is busy or not, but that nothing is said of two reads of a data
register while it is busy: that R59 does not bind these is the model's choice (log entry 7). -/
def Obligations.ReadsHaveNoSideEffects : Prop :=
  (∀ (s t : State) (rest : List Event) (addr size : Nat),
    step { s with agenda := .host (.read addr size) :: rest } = .next t →
    t.state = s.state ∧ t.ks = s.ks ∧ t.rcon = s.rcon ∧ t.result = s.result ∧ t.busy = s.busy
    ∧ t.done = s.done ∧ t.pending = s.pending ∧ t.phase = s.phase ∧ t.stateW = s.stateW
    ∧ t.ksW = s.ksW ∧ t.resW = s.resW ∧ t.key0 = s.key0 ∧ t.key1 = s.key1
    ∧ (∀ off : Nat, off < 0x100 → addr = Config.base + off → size = 4 → regAt off ≠ none →
      t.err = s.err ∧ t.errcode = s.errcode))
  ∧ ∀ (s : State) (rest : List Event) (off : Nat), off < 0x100 → regAt off ≠ none →
    (s.busy = true → off = 0x000 ∨ off = 0x004) →
    let read := .host (.read (Config.base + off) 4)
    ∃ (t u : State) (w : Word), step { s with agenda := read :: read :: rest } = .next t
      ∧ step t = .next u ∧ t.rdata = some w ∧ u.rdata = some w

/-! ## Command acceptance (30_encoding.md) -/

/-- R80, R209: a host write of `v` to CMD. While busy it raises CMD_BUSY; else an illegal word raises
ILLEGAL_CMD; either drops the word and changes nothing but the error latch and the record. A legal word
is accepted: it becomes PENDING, BUSY is set and DONE cleared; data it reads that has not been written
is recorded as Unwritten, STATE and KS each once (the model's reading of R80 and R209, log entry 10),
and does not stop acceptance. -/
def Obligations.CommandAcceptance : Prop :=
  ∀ (s : State) (rest : List Event) (v : Word),
    let s0 := { s with agenda := .host (.write (Config.base + 0x000) 4 v) :: rest }
    (s.busy = true → step s0 = .next { s with
      agenda := rest, err := true, errcode := if s.err then s.errcode else .cmdBusy
      faults := s.faults ++ [.hardwareError .cmdBusy] })
    ∧ (s.busy = false → legal v = false → step s0 = .next { s with
      agenda := rest, err := true, errcode := if s.err then s.errcode else .illegalCmd
      faults := s.faults ++ [.hardwareError .illegalCmd] })
    ∧ (s.busy = false → legal v = true →
      let op := v.extractLsb' 0 4
      let state := if 0x5 ≤ op ∧ ¬ s.stateW = #v[true, true, true, true] then [FaultRecord.modelFault .unwritten] else []
      let ks := if op = 0x7 ∧ s.ksW = false then [FaultRecord.modelFault .unwritten] else []
      step s0 = .next { s with
        agenda := rest, pending := some v, busy := true, done := false
        faults := s.faults ++ state ++ ks })

/-! ## The step (60_exceptions.md, 70_reset_and_hazards.md) -/

/-- R201, R60: at the engine's turn a step is exec of the command that PENDING decodes to, at that state
without the turn just taken. Two clauses are the model's own choice (DESIGN CHOICE): that an empty agenda
gives the engine its turn (log entry 4), and that a turn while PENDING is empty changes nothing else (log
entry 16). -/
def Obligations.StepRunsThePendingCommand : Prop :=
  ∀ (s : State) (rest : List Event) (v : Word) (i : Instr), decode v = .ok i →
    step { s with pending := some v, agenda := .engine :: rest }
      = exec i { s with pending := some v, agenda := rest }
    ∧ step { s with pending := some v, agenda := [] } = exec i { s with pending := some v, agenda := [] }
    ∧ step { s with pending := none, agenda := .engine :: rest }
      = .next { s with pending := none, agenda := rest }
    ∧ step { s with pending := none, agenda := [] } = .next { s with pending := none, agenda := [] }

/-- R230, R41, R38: the reset input, whatever the core was doing, leaves it idle and without error: BUSY,
DONE, ERR and every mark are 0, ERRCODE is NONE, PENDING is empty and PHASE is Idle; KEY0 and KEY1 are
unaffected and FAULTS is not cleared. The state at the start of a run is the same in these, with FAULTS
empty. -/
def Obligations.ResetValues : Prop :=
  (∀ (s : State) (rest : List Event), ∃ t : State,
    step { s with agenda := .reset :: rest } = .next t
    ∧ t.busy = false ∧ t.done = false ∧ t.err = false ∧ t.errcode = .none ∧ t.pending = none
    ∧ t.phase = .idle ∧ t.stateW = #v[false, false, false, false] ∧ t.ksW = false ∧ t.resW = false
    ∧ statusWord t = 0 ∧ t.key0 = s.key0 ∧ t.key1 = s.key1 ∧ t.faults = s.faults ∧ t.agenda = rest)
  ∧ State.reset.busy = false ∧ State.reset.done = false ∧ State.reset.err = false
  ∧ State.reset.errcode = .none ∧ State.reset.pending = none ∧ State.reset.phase = .idle
  ∧ State.reset.stateW = #v[false, false, false, false] ∧ State.reset.ksW = false
  ∧ State.reset.resW = false ∧ State.reset.faults = [] ∧ State.reset.key0 = Config.key0
  ∧ State.reset.key1 = Config.key1

/-- R33: ERR and ERRCODE are set by the first hardware error and keep their values at every step that is
not a reset, a later error, a command and a register write among them; ERR is set only by a step that
records a hardware error, and ERRCODE is then that error's code. -/
def Obligations.ErrorLatchKeepsTheFirstError : Prop :=
  ∀ s t : State, s.NoReset → step s = .next t →
    (s.err = true → t.err = true ∧ t.errcode = s.errcode)
    ∧ (s.err = false → t.err = true → t.errcode ≠ .none
        ∧ t.faults = s.faults ++ [.hardwareError t.errcode])
    ∧ (∀ c, t.faults = s.faults ++ [.hardwareError c] →
        t.err = true ∧ (s.err = false → t.errcode = c))
    ∧ (t.err = false → t.errcode = s.errcode)

/-- R38: nothing removes an entry of FAULTS: every step, a reset too, keeps the record as a prefix. -/
def Obligations.FaultRecordOnlyGrows : Prop :=
  ∀ s t : State, step s = .next t → s.faults <+: t.faults

/-- R22: a step that changes STATE is a host write to a STATE register while the core is not busy, the
engine's execution of ROUND, FINAL, ARK or ENCRYPT, or a reset. -/
def Obligations.OnlyTheseStepsWriteState : Prop :=
  ∀ s t : State, step s = .next t → t.state ≠ s.state →
    (∃ (j : Fin 4) (v : Word), s.busy = false
      ∧ s.agenda.head? = some (.host (.write (Config.base + (0x010 + 4 * j.val)) 4 v)))
    ∨ (∃ i, s.Runs i ∧ (i = .round ∨ i = .final ∨ (∃ r, i = .ark r) ∨ ∃ k, i = .encrypt k))
    ∨ s.agenda.head? = some .reset

/-- R24: a step that changes KS is the engine's execution of EXPAND or ENCRYPT, or a reset; and after an
EXPAND or ENCRYPT all of KS is the expansion of the selected root key and round key 0 equals that root
key. -/
def Obligations.OnlyTheseStepsWriteSchedule : Prop :=
  ∀ s t : State, step s = .next t →
    (t.ks ≠ s.ks → (∃ k, s.Runs (.expand k) ∨ s.Runs (.encrypt k)) ∨ s.agenda.head? = some .reset)
    ∧ ∀ k, (s.Runs (.expand k) ∨ s.Runs (.encrypt k)) →
      t.ks = expand (rootKey k s) ∧ roundKey t.ks 0 = rootKey k s

/-- R28: a step that changes RESULT is the engine's execution of SBOX, MUL2 or MUL3, or a reset. -/
def Obligations.OnlyTheseStepsWriteResult : Prop :=
  ∀ s t : State, step s = .next t → t.result ≠ s.result →
    (∃ x, s.Runs (.sbox x) ∨ s.Runs (.mul2 x) ∨ s.Runs (.mul3 x)) ∨ s.agenda.head? = some .reset

/-- R26, R232: no step changes a root key, a reset neither. -/
def Obligations.RootKeysNeverChange : Prop :=
  ∀ s t : State, step s = .next t → t.key0 = s.key0 ∧ t.key1 = s.key1

/-- R37: reset clears the written marks and nothing else does; a host write to STATEj sets its mark;
EXPAND and ENCRYPT set KS_W; SBOX, MUL2 and MUL3 set RES_W; the commands that write STATE set every
mark of it. -/
def Obligations.WrittenMarks : Prop :=
  ∀ s t : State, step s = .next t →
    (s.NoReset → (∀ j : Fin 4, s.stateW[j] = true → t.stateW[j] = true)
      ∧ (s.ksW = true → t.ksW = true) ∧ (s.resW = true → t.resW = true))
    ∧ (s.agenda.head? = some .reset → t.stateW = #v[false, false, false, false] ∧ t.ksW = false
      ∧ t.resW = false)
    ∧ (∀ (j : Fin 4) (v : Word), s.busy = false →
      s.agenda.head? = some (.host (.write (Config.base + (0x010 + 4 * j.val)) 4 v)) → t.stateW[j] = true)
    ∧ (∀ k, s.Runs (.expand k) ∨ s.Runs (.encrypt k) → t.ksW = true)
    ∧ (∀ x, s.Runs (.sbox x) ∨ s.Runs (.mul2 x) ∨ s.Runs (.mul3 x) → t.resW = true)
    ∧ (∀ i, s.Runs i → i = .round ∨ i = .final ∨ (∃ r, i = .ark r) ∨ (∃ k, i = .encrypt k) →
      t.stateW = #v[true, true, true, true])

/-- R32: DONE is set to 1 when the engine completes a command, cleared when a command is accepted, and
unchanged by every other step that is not a reset, a refused CMD write among them. -/
def Obligations.DoneBit : Prop :=
  ∀ s t : State, s.NoReset → step s = .next t →
    (∀ i, s.Runs i → t.done = true)
    ∧ (∀ v : Word, s.agenda.head? = some (.host (.write (Config.base + 0x000) 4 v)) →
      (s.busy = false ∧ legal v = true → t.done = false)
      ∧ (s.busy = true ∨ legal v = false → t.done = s.done))
    ∧ (t.done ≠ s.done → (∃ i, s.Runs i)
      ∨ ∃ v : Word, s.agenda.head? = some (.host (.write (Config.base + 0x000) 4 v))
        ∧ s.busy = false ∧ legal v = true)

/-! ## Invariants and runs -/

/-- R35, R32, R80, R36, R33, R205: every step, whatever the host or the reset input does, keeps the
invariant `State.Inv`. -/
def Obligations.EveryStepKeepsTheInvariant : Prop :=
  ∀ s t : State, s.Inv → step s = .next t → t.Inv

/-- R41: the invariant holds after reset. -/
def Obligations.ResetHasTheInvariant : Prop := State.reset.Inv

/-- R203, R207, R211: from a state with the invariant no step stops: every error and every model fault
is recorded and execution goes on. -/
def Obligations.NoStepStops : Prop :=
  ∀ s : State, s.Inv → ∃ t, step s = .next t

/-- R201, R230, R251: from a state with the invariant, whatever the agenda holds, the run through it and
one step more ends idle, with the agenda empty, no command pending and BUSY 0. A reset in the agenda
abandons a command, so this does not say that each command takes effect; PendingCommandTakesEffect says
when it does. That an empty agenda gives the engine its turn is the model's choice (log entry 4). -/
def Obligations.EveryRunThroughTheAgendaEndsIdle : Prop :=
  ∀ s : State, s.Inv → ∃ t, stepMany (s.agenda.length + 1) s = .next t
    ∧ t.agenda = [] ∧ t.pending = none ∧ t.busy = false

/-- R233, R240, R241: from a state with the invariant and no fault recorded, a step of a host that obeys
the spec's rules records none. -/
def Obligations.ObeyingHostMeetsNoFault : Prop :=
  ∀ s t : State, s.Inv → s.Clean → s.HostObeys = true → step s = .next t → t.Clean

/-- R201, R60, R80, R240: a pending command takes effect at the engine's turn as if the host had done
nothing since the command was accepted. Where only host accesses, of any kind and number, stand before
the turn, the run comes to it with the command still pending; the step then answers the state that exec
of the command gives, DONE 1 and BUSY 0 included, but for what host accesses change while the core is
busy: the error latch, the fault record, what the host has read and the free values drawn. Two things
here are the model's choice: that an empty agenda gives the engine its turn (log entry 4), and that a
STATE write during a hazard leaves STATE unchanged (log entry 8). -/
def Obligations.PendingCommandTakesEffect : Prop :=
  ∀ (s : State) (v : Word) (i : Instr) (accesses : List Access) (rest : List Event),
    s.busy = true → s.pending = some v → decode v = .ok i →
    (s.agenda = accesses.map Event.host ++ .engine :: rest ∨ (s.agenda = accesses.map Event.host ∧ rest = [])) →
    ∃ w u t : State, exec i s = .next w
      ∧ stepMany accesses.length s = .next u ∧ u.pending = some v ∧ u.busy = true
      ∧ step u = .next t ∧ t.done = true ∧ t.busy = false ∧ t.pending = none
      ∧ t = { w with
        agenda := rest, err := t.err, errcode := t.errcode, faults := t.faults
        rdata := t.rdata, freeCount := t.freeCount }

/-! ## Known answers (95_test_vectors.md) -/

/-- V1, V21, V60: the source's known-answer test, the last round key of the key of V21, and the last row
of V60. -/
def Obligations.KnownAnswers : Prop :=
  (cipher (Vector.replicate 16 0) (Vector.replicate 16 0)).1
    = #v[0x66, 0xe9, 0x4b, 0xd4, 0xef, 0x8a, 0x2c, 0x3b, 0x88, 0x4c, 0xfa, 0x59, 0xca, 0x34, 0x2b, 0x2e]
  ∧ roundKey (expand
      #v[0x2b, 0x7e, 0x15, 0x16, 0x28, 0xae, 0xd2, 0xa6, 0xab, 0xf7, 0x15, 0x88, 0x09, 0xcf, 0x4f, 0x3c]) 10
    = #v[0xd0, 0x14, 0xf9, 0xa8, 0xc9, 0xee, 0x25, 0x89, 0xe1, 0x3f, 0x0c, 0xc8, 0xb6, 0x63, 0x0c, 0xa6]
  ∧ (cipher
      #v[0x00, 0x01, 0x02, 0x03, 0x04, 0x05, 0x06, 0x07, 0x08, 0x09, 0x0a, 0x0b, 0x0c, 0x0d, 0x0e, 0x0f]
      #v[0x00, 0x11, 0x22, 0x33, 0x44, 0x55, 0x66, 0x77, 0x88, 0x99, 0xaa, 0xbb, 0xcc, 0xdd, 0xee, 0xff]).1
    = #v[0x69, 0xc4, 0xe0, 0xd8, 0x6a, 0x7b, 0x04, 0x30, 0xd8, 0xcd, 0xb7, 0x80, 0x70, 0xb4, 0xc5, 0x5a]
end

