-- ==== Sys2Proof/Laws/Transforms.lean ====
section
/-! SUPPORT. The bytes of each byte-sequence function, one lemma per function, so that later proofs
read a byte without unfolding. -/

namespace Sys2Proof

@[simp] theorem getElem_xorBytes {n : Nat} (a b : Vector Byte n) (k : Nat) (h : k < n) :
    (xorBytes a b)[k] = a[k] ^^^ b[k] := by
  simp [xorBytes]

theorem xorBytes_cancel {n : Nat} (a b : Vector Byte n) : xorBytes (xorBytes a b) b = a := by
  ext k h : 1
  simp

namespace Machine

@[simp] theorem getElem_roundKey (w : Schedule) (r : Fin 11) (j : Nat) (h : j < 16) :
    (roundKey w r)[j] = w[16 * r.val + j] := by
  simp [roundKey]

@[simp] theorem getElem_ark (s k : Block) (j : Nat) (h : j < 16) :
    (ark s k)[j] = s[j] ^^^ k[j] := by
  simp [ark]

@[simp] theorem getElem_rt (s : Block) (k : Nat) (h : k < 16) :
    (rt s)[k] = (roundColumn s (4 * (k / 4)))[k % 4] := by
  simp [rt]

@[simp] theorem getElem_ft (s : Block) (k : Nat) (h : k < 16) :
    (ft s)[k] = sbox (s[(k + 4 * (k % 4)) % 16]) := by
  simp [ft]

@[simp] theorem getElem_subBytes (s : Block) (k : Nat) (h : k < 16) :
    (subBytes s)[k] = sbox s[k] := by
  simp [subBytes]

@[simp] theorem getElem_shiftRows (s : Block) (k : Nat) (h : k < 16) :
    (shiftRows s)[k] = s[(k + 4 * (k % 4)) % 16] := by
  simp [shiftRows]

@[simp] theorem getElem_mixColumns (s : Block) (k : Nat) (h : k < 16) :
    (mixColumns s)[k] = (mixColumn (stateColumn s ⟨k / 4, by omega⟩))[k % 4] := by
  simp [mixColumns]

/-- R122: before its loop an expansion holds the root key in its first sixteen bytes. -/
theorem getElem_expandStart (k : Block) (j : Nat) (h : j < 16) :
    (expandStart k).w[j] = k[j] := by
  simp [expandStart, h]

/-- R124: one iteration writes the bytes 16 + 4n .. 16 + 4n + 3 and no other. -/
theorem getElem_expandWord_other (n : Nat) (hn : n < 40) (e : Expansion) (j : Nat) (h : j < 176)
    (hj : j < 16 + 4 * n ∨ 16 + 4 * n + 4 ≤ j) : (expandWord n hn e).w[j] = e.w[j] := by
  simp only [expandWord]
  rw [Vector.getElem_set_ne, Vector.getElem_set_ne, Vector.getElem_set_ne, Vector.getElem_set_ne]
  all_goals omega

end Machine

end Sys2Proof
end

