-- ==== Sys2Proof/Laws/KeySchedule.lean ====
section
/-! SUPPORT. What the loop of the key expansion does, said once: the bytes an iteration writes, and that
no later iteration changes them. -/

namespace Sys2Proof.Machine

/-- R124: the finished expansion is the loop's state after N = 40 words. Citing it with N a variable
keeps forty iterations folded. -/
theorem expansion_eq_expandTo (k : Block) (N : Nat) (h : N = 40) :
    expansion k = expandTo k N (by omega) := by
  subst h
  unfold expansion
  exact Eq.refl _

/-- R124: the four bytes one iteration writes. -/
theorem getElem_expandWord_new (n : Nat) (hn : n < 40) (e : Expansion) (m : Nat) (hm : m < 4) :
    (expandWord n hn e).w[16 + 4 * n + m] =
      (xorBytes
        (if n % 4 = 0 then
          addRcon (subWord (rotWord (scheduleWord e.w ⟨n + 3, by omega⟩))) e.rc
        else scheduleWord e.w ⟨n + 3, by omega⟩)
        (scheduleWord e.w ⟨n, by omega⟩))[m] := by
  have start : (16 + 4 * n) % 16 = 0 ↔ n % 4 = 0 := by omega
  simp only [expandWord, start, decide_eq_true_eq]
  have : m = 0 ∨ m = 1 ∨ m = 2 ∨ m = 3 := by omega
  rcases this with rfl | rfl | rfl | rfl <;> simp

/-- R124: RCON is doubled once in each new block. -/
theorem expandWord_rc (n : Nat) (hn : n < 40) (e : Expansion) :
    (expandWord n hn e).rc = if n % 4 = 0 then xtime e.rc else e.rc := by
  have start : (16 + 4 * n) % 16 = 0 ↔ n % 4 = 0 := by omega
  simp only [expandWord, start, decide_eq_true_eq]

/-- R124: a byte filled after n words is never changed by a later one. -/
theorem getElem_expandTo_add (k : Block) (n d : Nat) (h : n + d ≤ 40) (j : Nat)
    (hj : j < 16 + 4 * n) :
    (expandTo k (n + d) h).w[j] = (expandTo k n (by omega)).w[j] := by
  induction d with
  | zero => exact Eq.refl _
  | succ d ih =>
    show (expandWord (n + d) _ _).w[j] = _
    rw [getElem_expandWord_other _ _ _ _ (by omega) (by omega)]
    exact ih _

/-- R124: the bytes of a schedule are those the loop has filled. -/
theorem getElem_expand (k : Block) (n : Nat) (hn : n ≤ 40) (j : Nat) (hj : j < 16 + 4 * n) :
    (expand k)[j] = (expandTo k n hn).w[j] := by
  have filled : ∀ N (hN : N = 40), (expand k)[j] = (expandTo k N (by omega)).w[j] := by
    intro N hN
    unfold expand
    simp only [expansion_eq_expandTo k N hN]
  obtain ⟨N, hN⟩ : ∃ N, N = 40 := ⟨_, rfl⟩
  rw [filled N hN]
  obtain ⟨d, rfl⟩ := Nat.exists_eq_add_of_le (show n ≤ N by omega)
  exact getElem_expandTo_add k n d (by omega) j hj

/-- R121: the words of a schedule are those the loop has filled. -/
theorem scheduleWord_expand (k : Block) (n : Nat) (hn : n ≤ 40) (m : Nat) (hm : m < n + 4) :
    scheduleWord (expand k) ⟨m, by omega⟩ = scheduleWord (expandTo k n hn).w ⟨m, by omega⟩ := by
  have h0 := getElem_expand k n hn (4 * m) (by omega)
  have h1 := getElem_expand k n hn (4 * m + 1) (by omega)
  have h2 := getElem_expand k n hn (4 * m + 2) (by omega)
  have h3 := getElem_expand k n hn (4 * m + 3) (by omega)
  generalize expand k = w at *
  simp only [scheduleWord, h0, h1, h2, h3]

end Sys2Proof.Machine
end

