-- ==== Sys2Proof/Laws/Cipher.lean ====
section
/-! SUPPORT. What each phase of the orchestrator does and which phase follows it (43_cipher.md R172). -/

namespace Sys2Proof.Machine

variable (k : Block) (s : State)

theorem advance_idle : advance k { s with phase := .idle } = { s with phase := .expand } := by
  simp only [advance, phaseAction, nextPhase]

theorem advance_expand : advance k { s with phase := .expand } =
    { s with ks := expand k, rcon := (expansion k).rc, ksW := true, phase := .keyAddition 0 } := by
  simp only [advance, phaseAction, nextPhase, writeSchedule]

theorem advance_keyAddition (r : Fin 11) : advance k { s with phase := .keyAddition r } =
    { s with state := ark s.state (roundKey s.ks r), stateW := Vector.replicate 4 true
             phase := nextPhase (.keyAddition r) } := by
  simp only [advance, phaseAction, writeState]

theorem advance_roundTransform (r : Fin 11) : advance k { s with phase := .roundTransform r } =
    { s with state := rt s.state, stateW := Vector.replicate 4 true, phase := .keyAddition r } := by
  simp only [advance, phaseAction, nextPhase, writeState]

theorem advance_finalTransform : advance k { s with phase := .finalTransform } =
    { s with state := ft s.state, stateW := Vector.replicate 4 true, phase := .keyAddition 10 } := by
  simp only [advance, phaseAction, nextPhase, writeState]

theorem advance_done : advance k { s with phase := .done } = { s with phase := .idle } := by
  simp only [advance, phaseAction, nextPhase]

end Sys2Proof.Machine
end

