-- ==== Sys2Proof/Laws/Encoding.lean ====
section
/-! SUPPORT. The fields of an assembled command word, and a word from its fields. -/

namespace Sys2Proof

variable (op kidx rnd : BitVec 4) (arg : Byte)

@[simp] theorem fieldOp_assemble : fieldOp (assemble op kidx rnd arg) = op := by
  ext j hj
  simp only [fieldOp, assemble, BitVec.getElem_extractLsb', BitVec.getLsbD_append]
  interval_cases j <;> simp

@[simp] theorem fieldKidx_assemble : fieldKidx (assemble op kidx rnd arg) = kidx := by
  ext j hj
  simp only [fieldKidx, assemble, BitVec.getElem_extractLsb', BitVec.getLsbD_append]
  interval_cases j <;> simp

@[simp] theorem fieldRnd_assemble : fieldRnd (assemble op kidx rnd arg) = rnd := by
  ext j hj
  simp only [fieldRnd, assemble, BitVec.getElem_extractLsb', BitVec.getLsbD_append]
  interval_cases j <;> simp

@[simp] theorem fieldArg_assemble : fieldArg (assemble op kidx rnd arg) = arg := by
  ext j hj
  simp only [fieldArg, assemble, BitVec.getElem_extractLsb', BitVec.getLsbD_append]
  interval_cases j <;> simp

@[simp] theorem reservedZero_assemble : reservedZero (assemble op kidx rnd arg) = true := by
  have low : fieldLowReserved (assemble op kidx rnd arg) = 0 := by
    ext j hj
    simp only [fieldLowReserved, assemble, BitVec.getElem_extractLsb', BitVec.getLsbD_append]
    interval_cases j <;> simp
  have high : fieldHighReserved (assemble op kidx rnd arg) = 0 := by
    ext j hj
    simp only [fieldHighReserved, assemble, BitVec.getElem_extractLsb', BitVec.getLsbD_append]
    interval_cases j <;> simp
  simp [reservedZero, low, high]

/-- R70: a word is made of its six fields. -/
theorem word_of_fields (v : Word) :
    v = fieldHighReserved v ++ fieldArg v ++ fieldLowReserved v ++ fieldRnd v ++ fieldKidx v
      ++ fieldOp v := by
  apply BitVec.eq_of_getLsbD_eq
  intro k hk
  simp only [BitVec.getLsbD_append, fieldHighReserved, fieldArg, fieldLowReserved, fieldRnd,
    fieldKidx, fieldOp, BitVec.getLsbD_extractLsb']
  interval_cases k <;> simp

/-- R70: a word with zero reserved bits is assembled from its four other fields. -/
theorem assemble_of_fields (v : Word) (h : reservedZero v = true) :
    assemble (fieldOp v) (fieldKidx v) (fieldRnd v) (fieldArg v) = v := by
  conv => rhs; rw [word_of_fields v]
  simp only [reservedZero, Bool.and_eq_true, beq_iff_eq] at h
  rw [h.1, h.2]
  rfl

end Sys2Proof
end

