-- ==== Sys2Proof/Laws/State.lean ====
section
/-! SUPPORT. One lemma per field per update of the state: what each shared operation of Machine/Flags.lean
and Machine/Ops.lean leaves in each field. -/

namespace Sys2Proof.Machine

variable (s : State)

@[simp] theorem complete_state : (complete s).state = s.state := rfl
@[simp] theorem complete_ks : (complete s).ks = s.ks := rfl
@[simp] theorem complete_rcon : (complete s).rcon = s.rcon := rfl
@[simp] theorem complete_key0 : (complete s).key0 = s.key0 := rfl
@[simp] theorem complete_key1 : (complete s).key1 = s.key1 := rfl
@[simp] theorem complete_result : (complete s).result = s.result := rfl
@[simp] theorem complete_busy : (complete s).busy = false := rfl
@[simp] theorem complete_done : (complete s).done = true := rfl
@[simp] theorem complete_err : (complete s).err = s.err := rfl
@[simp] theorem complete_errcode : (complete s).errcode = s.errcode := rfl
@[simp] theorem complete_pending : (complete s).pending = none := rfl
@[simp] theorem complete_phase : (complete s).phase = s.phase := rfl
@[simp] theorem complete_stateW : (complete s).stateW = s.stateW := rfl
@[simp] theorem complete_ksW : (complete s).ksW = s.ksW := rfl
@[simp] theorem complete_resW : (complete s).resW = s.resW := rfl
@[simp] theorem complete_faults : (complete s).faults = s.faults := rfl
@[simp] theorem complete_agenda : (complete s).agenda = s.agenda := rfl
@[simp] theorem complete_rdata : (complete s).rdata = s.rdata := rfl
@[simp] theorem complete_freeCount : (complete s).freeCount = s.freeCount := rfl

@[simp] theorem accept_state (v : Word) : (accept v s).state = s.state := rfl
@[simp] theorem accept_ks (v : Word) : (accept v s).ks = s.ks := rfl
@[simp] theorem accept_rcon (v : Word) : (accept v s).rcon = s.rcon := rfl
@[simp] theorem accept_key0 (v : Word) : (accept v s).key0 = s.key0 := rfl
@[simp] theorem accept_key1 (v : Word) : (accept v s).key1 = s.key1 := rfl
@[simp] theorem accept_result (v : Word) : (accept v s).result = s.result := rfl
@[simp] theorem accept_busy (v : Word) : (accept v s).busy = true := rfl
@[simp] theorem accept_done (v : Word) : (accept v s).done = false := rfl
@[simp] theorem accept_err (v : Word) : (accept v s).err = s.err := rfl
@[simp] theorem accept_errcode (v : Word) : (accept v s).errcode = s.errcode := rfl
@[simp] theorem accept_pending (v : Word) : (accept v s).pending = some v := rfl
@[simp] theorem accept_phase (v : Word) : (accept v s).phase = s.phase := rfl
@[simp] theorem accept_stateW (v : Word) : (accept v s).stateW = s.stateW := rfl
@[simp] theorem accept_ksW (v : Word) : (accept v s).ksW = s.ksW := rfl
@[simp] theorem accept_resW (v : Word) : (accept v s).resW = s.resW := rfl
@[simp] theorem accept_faults (v : Word) : (accept v s).faults = s.faults := rfl
@[simp] theorem accept_agenda (v : Word) : (accept v s).agenda = s.agenda := rfl
@[simp] theorem accept_rdata (v : Word) : (accept v s).rdata = s.rdata := rfl
@[simp] theorem accept_freeCount (v : Word) : (accept v s).freeCount = s.freeCount := rfl

@[simp] theorem raiseError_state (c : ErrCode) : (raiseError c s).state = s.state := rfl
@[simp] theorem raiseError_ks (c : ErrCode) : (raiseError c s).ks = s.ks := rfl
@[simp] theorem raiseError_rcon (c : ErrCode) : (raiseError c s).rcon = s.rcon := rfl
@[simp] theorem raiseError_key0 (c : ErrCode) : (raiseError c s).key0 = s.key0 := rfl
@[simp] theorem raiseError_key1 (c : ErrCode) : (raiseError c s).key1 = s.key1 := rfl
@[simp] theorem raiseError_result (c : ErrCode) : (raiseError c s).result = s.result := rfl
@[simp] theorem raiseError_busy (c : ErrCode) : (raiseError c s).busy = s.busy := rfl
@[simp] theorem raiseError_done (c : ErrCode) : (raiseError c s).done = s.done := rfl
@[simp] theorem raiseError_err (c : ErrCode) : (raiseError c s).err = true := rfl
@[simp] theorem raiseError_errcode (c : ErrCode) :
    (raiseError c s).errcode = if s.err then s.errcode else c := rfl
@[simp] theorem raiseError_pending (c : ErrCode) : (raiseError c s).pending = s.pending := rfl
@[simp] theorem raiseError_phase (c : ErrCode) : (raiseError c s).phase = s.phase := rfl
@[simp] theorem raiseError_stateW (c : ErrCode) : (raiseError c s).stateW = s.stateW := rfl
@[simp] theorem raiseError_ksW (c : ErrCode) : (raiseError c s).ksW = s.ksW := rfl
@[simp] theorem raiseError_resW (c : ErrCode) : (raiseError c s).resW = s.resW := rfl
@[simp] theorem raiseError_faults (c : ErrCode) :
    (raiseError c s).faults = s.faults ++ [.hardwareError c] := rfl
@[simp] theorem raiseError_agenda (c : ErrCode) : (raiseError c s).agenda = s.agenda := rfl
@[simp] theorem raiseError_rdata (c : ErrCode) : (raiseError c s).rdata = s.rdata := rfl
@[simp] theorem raiseError_freeCount (c : ErrCode) : (raiseError c s).freeCount = s.freeCount := rfl

@[simp] theorem raiseModelFault_state (f : ModelFault) :
    (raiseModelFault f s).state = s.state := rfl
@[simp] theorem raiseModelFault_ks (f : ModelFault) : (raiseModelFault f s).ks = s.ks := rfl
@[simp] theorem raiseModelFault_rcon (f : ModelFault) : (raiseModelFault f s).rcon = s.rcon := rfl
@[simp] theorem raiseModelFault_key0 (f : ModelFault) : (raiseModelFault f s).key0 = s.key0 := rfl
@[simp] theorem raiseModelFault_key1 (f : ModelFault) : (raiseModelFault f s).key1 = s.key1 := rfl
@[simp] theorem raiseModelFault_result (f : ModelFault) :
    (raiseModelFault f s).result = s.result := rfl
@[simp] theorem raiseModelFault_busy (f : ModelFault) : (raiseModelFault f s).busy = s.busy := rfl
@[simp] theorem raiseModelFault_done (f : ModelFault) : (raiseModelFault f s).done = s.done := rfl
@[simp] theorem raiseModelFault_err (f : ModelFault) : (raiseModelFault f s).err = s.err := rfl
@[simp] theorem raiseModelFault_errcode (f : ModelFault) :
    (raiseModelFault f s).errcode = s.errcode := rfl
@[simp] theorem raiseModelFault_pending (f : ModelFault) :
    (raiseModelFault f s).pending = s.pending := rfl
@[simp] theorem raiseModelFault_phase (f : ModelFault) :
    (raiseModelFault f s).phase = s.phase := rfl
@[simp] theorem raiseModelFault_stateW (f : ModelFault) :
    (raiseModelFault f s).stateW = s.stateW := rfl
@[simp] theorem raiseModelFault_ksW (f : ModelFault) : (raiseModelFault f s).ksW = s.ksW := rfl
@[simp] theorem raiseModelFault_resW (f : ModelFault) : (raiseModelFault f s).resW = s.resW := rfl
@[simp] theorem raiseModelFault_faults (f : ModelFault) :
    (raiseModelFault f s).faults = s.faults ++ [.modelFault f] := rfl
@[simp] theorem raiseModelFault_agenda (f : ModelFault) :
    (raiseModelFault f s).agenda = s.agenda := rfl
@[simp] theorem raiseModelFault_rdata (f : ModelFault) :
    (raiseModelFault f s).rdata = s.rdata := rfl
@[simp] theorem raiseModelFault_freeCount (f : ModelFault) :
    (raiseModelFault f s).freeCount = s.freeCount := rfl

@[simp] theorem writeState_state (b : Block) : (writeState b s).state = b := rfl
@[simp] theorem writeState_ks (b : Block) : (writeState b s).ks = s.ks := rfl
@[simp] theorem writeState_rcon (b : Block) : (writeState b s).rcon = s.rcon := rfl
@[simp] theorem writeState_key0 (b : Block) : (writeState b s).key0 = s.key0 := rfl
@[simp] theorem writeState_key1 (b : Block) : (writeState b s).key1 = s.key1 := rfl
@[simp] theorem writeState_result (b : Block) : (writeState b s).result = s.result := rfl
@[simp] theorem writeState_busy (b : Block) : (writeState b s).busy = s.busy := rfl
@[simp] theorem writeState_done (b : Block) : (writeState b s).done = s.done := rfl
@[simp] theorem writeState_err (b : Block) : (writeState b s).err = s.err := rfl
@[simp] theorem writeState_errcode (b : Block) : (writeState b s).errcode = s.errcode := rfl
@[simp] theorem writeState_pending (b : Block) : (writeState b s).pending = s.pending := rfl
@[simp] theorem writeState_phase (b : Block) : (writeState b s).phase = s.phase := rfl
@[simp] theorem writeState_stateW (b : Block) :
    (writeState b s).stateW = Vector.replicate 4 true := rfl
@[simp] theorem writeState_ksW (b : Block) : (writeState b s).ksW = s.ksW := rfl
@[simp] theorem writeState_resW (b : Block) : (writeState b s).resW = s.resW := rfl
@[simp] theorem writeState_faults (b : Block) : (writeState b s).faults = s.faults := rfl
@[simp] theorem writeState_agenda (b : Block) : (writeState b s).agenda = s.agenda := rfl
@[simp] theorem writeState_rdata (b : Block) : (writeState b s).rdata = s.rdata := rfl
@[simp] theorem writeState_freeCount (b : Block) : (writeState b s).freeCount = s.freeCount := rfl

@[simp] theorem writeSchedule_state (w : Schedule) (rc : Byte) :
    (writeSchedule w rc s).state = s.state := rfl
@[simp] theorem writeSchedule_ks (w : Schedule) (rc : Byte) : (writeSchedule w rc s).ks = w := rfl
@[simp] theorem writeSchedule_rcon (w : Schedule) (rc : Byte) :
    (writeSchedule w rc s).rcon = rc := rfl
@[simp] theorem writeSchedule_key0 (w : Schedule) (rc : Byte) :
    (writeSchedule w rc s).key0 = s.key0 := rfl
@[simp] theorem writeSchedule_key1 (w : Schedule) (rc : Byte) :
    (writeSchedule w rc s).key1 = s.key1 := rfl
@[simp] theorem writeSchedule_result (w : Schedule) (rc : Byte) :
    (writeSchedule w rc s).result = s.result := rfl
@[simp] theorem writeSchedule_busy (w : Schedule) (rc : Byte) :
    (writeSchedule w rc s).busy = s.busy := rfl
@[simp] theorem writeSchedule_done (w : Schedule) (rc : Byte) :
    (writeSchedule w rc s).done = s.done := rfl
@[simp] theorem writeSchedule_err (w : Schedule) (rc : Byte) :
    (writeSchedule w rc s).err = s.err := rfl
@[simp] theorem writeSchedule_errcode (w : Schedule) (rc : Byte) :
    (writeSchedule w rc s).errcode = s.errcode := rfl
@[simp] theorem writeSchedule_pending (w : Schedule) (rc : Byte) :
    (writeSchedule w rc s).pending = s.pending := rfl
@[simp] theorem writeSchedule_phase (w : Schedule) (rc : Byte) :
    (writeSchedule w rc s).phase = s.phase := rfl
@[simp] theorem writeSchedule_stateW (w : Schedule) (rc : Byte) :
    (writeSchedule w rc s).stateW = s.stateW := rfl
@[simp] theorem writeSchedule_ksW (w : Schedule) (rc : Byte) :
    (writeSchedule w rc s).ksW = true := rfl
@[simp] theorem writeSchedule_resW (w : Schedule) (rc : Byte) :
    (writeSchedule w rc s).resW = s.resW := rfl
@[simp] theorem writeSchedule_faults (w : Schedule) (rc : Byte) :
    (writeSchedule w rc s).faults = s.faults := rfl
@[simp] theorem writeSchedule_agenda (w : Schedule) (rc : Byte) :
    (writeSchedule w rc s).agenda = s.agenda := rfl
@[simp] theorem writeSchedule_rdata (w : Schedule) (rc : Byte) :
    (writeSchedule w rc s).rdata = s.rdata := rfl
@[simp] theorem writeSchedule_freeCount (w : Schedule) (rc : Byte) :
    (writeSchedule w rc s).freeCount = s.freeCount := rfl

@[simp] theorem writeResult_state (x : Byte) : (writeResult x s).state = s.state := rfl
@[simp] theorem writeResult_ks (x : Byte) : (writeResult x s).ks = s.ks := rfl
@[simp] theorem writeResult_rcon (x : Byte) : (writeResult x s).rcon = s.rcon := rfl
@[simp] theorem writeResult_key0 (x : Byte) : (writeResult x s).key0 = s.key0 := rfl
@[simp] theorem writeResult_key1 (x : Byte) : (writeResult x s).key1 = s.key1 := rfl
@[simp] theorem writeResult_result (x : Byte) : (writeResult x s).result = x := rfl
@[simp] theorem writeResult_busy (x : Byte) : (writeResult x s).busy = s.busy := rfl
@[simp] theorem writeResult_done (x : Byte) : (writeResult x s).done = s.done := rfl
@[simp] theorem writeResult_err (x : Byte) : (writeResult x s).err = s.err := rfl
@[simp] theorem writeResult_errcode (x : Byte) : (writeResult x s).errcode = s.errcode := rfl
@[simp] theorem writeResult_pending (x : Byte) : (writeResult x s).pending = s.pending := rfl
@[simp] theorem writeResult_phase (x : Byte) : (writeResult x s).phase = s.phase := rfl
@[simp] theorem writeResult_stateW (x : Byte) : (writeResult x s).stateW = s.stateW := rfl
@[simp] theorem writeResult_ksW (x : Byte) : (writeResult x s).ksW = s.ksW := rfl
@[simp] theorem writeResult_resW (x : Byte) : (writeResult x s).resW = true := rfl
@[simp] theorem writeResult_faults (x : Byte) : (writeResult x s).faults = s.faults := rfl
@[simp] theorem writeResult_agenda (x : Byte) : (writeResult x s).agenda = s.agenda := rfl
@[simp] theorem writeResult_rdata (x : Byte) : (writeResult x s).rdata = s.rdata := rfl
@[simp] theorem writeResult_freeCount (x : Byte) : (writeResult x s).freeCount = s.freeCount := rfl

@[simp] theorem writeColumn_state (j : Fin 4) (v : Word) :
    (writeColumn j v s).state = Vector.ofFn fun k : Fin 16 =>
      if k.val / 4 = j.val then byteOf v (k.val % 4) else s.state[k] := rfl
@[simp] theorem writeColumn_ks (j : Fin 4) (v : Word) : (writeColumn j v s).ks = s.ks := rfl
@[simp] theorem writeColumn_rcon (j : Fin 4) (v : Word) : (writeColumn j v s).rcon = s.rcon := rfl
@[simp] theorem writeColumn_key0 (j : Fin 4) (v : Word) : (writeColumn j v s).key0 = s.key0 := rfl
@[simp] theorem writeColumn_key1 (j : Fin 4) (v : Word) : (writeColumn j v s).key1 = s.key1 := rfl
@[simp] theorem writeColumn_result (j : Fin 4) (v : Word) :
    (writeColumn j v s).result = s.result := rfl
@[simp] theorem writeColumn_busy (j : Fin 4) (v : Word) : (writeColumn j v s).busy = s.busy := rfl
@[simp] theorem writeColumn_done (j : Fin 4) (v : Word) : (writeColumn j v s).done = s.done := rfl
@[simp] theorem writeColumn_err (j : Fin 4) (v : Word) : (writeColumn j v s).err = s.err := rfl
@[simp] theorem writeColumn_errcode (j : Fin 4) (v : Word) :
    (writeColumn j v s).errcode = s.errcode := rfl
@[simp] theorem writeColumn_pending (j : Fin 4) (v : Word) :
    (writeColumn j v s).pending = s.pending := rfl
@[simp] theorem writeColumn_phase (j : Fin 4) (v : Word) :
    (writeColumn j v s).phase = s.phase := rfl
@[simp] theorem writeColumn_stateW (j : Fin 4) (v : Word) :
    (writeColumn j v s).stateW = s.stateW.set j.val true := rfl
@[simp] theorem writeColumn_ksW (j : Fin 4) (v : Word) : (writeColumn j v s).ksW = s.ksW := rfl
@[simp] theorem writeColumn_resW (j : Fin 4) (v : Word) : (writeColumn j v s).resW = s.resW := rfl
@[simp] theorem writeColumn_faults (j : Fin 4) (v : Word) :
    (writeColumn j v s).faults = s.faults := rfl
@[simp] theorem writeColumn_agenda (j : Fin 4) (v : Word) :
    (writeColumn j v s).agenda = s.agenda := rfl
@[simp] theorem writeColumn_rdata (j : Fin 4) (v : Word) :
    (writeColumn j v s).rdata = s.rdata := rfl
@[simp] theorem writeColumn_freeCount (j : Fin 4) (v : Word) :
    (writeColumn j v s).freeCount = s.freeCount := rfl

@[simp] theorem reply_state (v : Word) : (reply v s).state = s.state := rfl
@[simp] theorem reply_ks (v : Word) : (reply v s).ks = s.ks := rfl
@[simp] theorem reply_rcon (v : Word) : (reply v s).rcon = s.rcon := rfl
@[simp] theorem reply_key0 (v : Word) : (reply v s).key0 = s.key0 := rfl
@[simp] theorem reply_key1 (v : Word) : (reply v s).key1 = s.key1 := rfl
@[simp] theorem reply_result (v : Word) : (reply v s).result = s.result := rfl
@[simp] theorem reply_busy (v : Word) : (reply v s).busy = s.busy := rfl
@[simp] theorem reply_done (v : Word) : (reply v s).done = s.done := rfl
@[simp] theorem reply_err (v : Word) : (reply v s).err = s.err := rfl
@[simp] theorem reply_errcode (v : Word) : (reply v s).errcode = s.errcode := rfl
@[simp] theorem reply_pending (v : Word) : (reply v s).pending = s.pending := rfl
@[simp] theorem reply_phase (v : Word) : (reply v s).phase = s.phase := rfl
@[simp] theorem reply_stateW (v : Word) : (reply v s).stateW = s.stateW := rfl
@[simp] theorem reply_ksW (v : Word) : (reply v s).ksW = s.ksW := rfl
@[simp] theorem reply_resW (v : Word) : (reply v s).resW = s.resW := rfl
@[simp] theorem reply_faults (v : Word) : (reply v s).faults = s.faults := rfl
@[simp] theorem reply_agenda (v : Word) : (reply v s).agenda = s.agenda := rfl
@[simp] theorem reply_rdata (v : Word) : (reply v s).rdata = some v := rfl
@[simp] theorem reply_freeCount (v : Word) : (reply v s).freeCount = s.freeCount := rfl

@[simp] theorem hazardReply_state : (hazardReply s).state = s.state := rfl
@[simp] theorem hazardReply_ks : (hazardReply s).ks = s.ks := rfl
@[simp] theorem hazardReply_rcon : (hazardReply s).rcon = s.rcon := rfl
@[simp] theorem hazardReply_key0 : (hazardReply s).key0 = s.key0 := rfl
@[simp] theorem hazardReply_key1 : (hazardReply s).key1 = s.key1 := rfl
@[simp] theorem hazardReply_result : (hazardReply s).result = s.result := rfl
@[simp] theorem hazardReply_busy : (hazardReply s).busy = s.busy := rfl
@[simp] theorem hazardReply_done : (hazardReply s).done = s.done := rfl
@[simp] theorem hazardReply_err : (hazardReply s).err = s.err := rfl
@[simp] theorem hazardReply_errcode : (hazardReply s).errcode = s.errcode := rfl
@[simp] theorem hazardReply_pending : (hazardReply s).pending = s.pending := rfl
@[simp] theorem hazardReply_phase : (hazardReply s).phase = s.phase := rfl
@[simp] theorem hazardReply_stateW : (hazardReply s).stateW = s.stateW := rfl
@[simp] theorem hazardReply_ksW : (hazardReply s).ksW = s.ksW := rfl
@[simp] theorem hazardReply_resW : (hazardReply s).resW = s.resW := rfl
@[simp] theorem hazardReply_faults :
    (hazardReply s).faults = s.faults ++ [.modelFault .hazard] := rfl
@[simp] theorem hazardReply_agenda : (hazardReply s).agenda = s.agenda := rfl
@[simp] theorem hazardReply_rdata :
    (hazardReply s).rdata = some (Config.hazardRead s.freeCount) := rfl
@[simp] theorem hazardReply_freeCount : (hazardReply s).freeCount = s.freeCount + 1 := rfl

@[simp] theorem resetCore_state : (resetCore s).state = State.reset.state := rfl
@[simp] theorem resetCore_ks : (resetCore s).ks = State.reset.ks := rfl
@[simp] theorem resetCore_rcon : (resetCore s).rcon = State.reset.rcon := rfl
@[simp] theorem resetCore_key0 : (resetCore s).key0 = s.key0 := rfl
@[simp] theorem resetCore_key1 : (resetCore s).key1 = s.key1 := rfl
@[simp] theorem resetCore_result : (resetCore s).result = State.reset.result := rfl
@[simp] theorem resetCore_busy : (resetCore s).busy = State.reset.busy := rfl
@[simp] theorem resetCore_done : (resetCore s).done = State.reset.done := rfl
@[simp] theorem resetCore_err : (resetCore s).err = State.reset.err := rfl
@[simp] theorem resetCore_errcode : (resetCore s).errcode = State.reset.errcode := rfl
@[simp] theorem resetCore_pending : (resetCore s).pending = State.reset.pending := rfl
@[simp] theorem resetCore_phase : (resetCore s).phase = State.reset.phase := rfl
@[simp] theorem resetCore_stateW : (resetCore s).stateW = State.reset.stateW := rfl
@[simp] theorem resetCore_ksW : (resetCore s).ksW = State.reset.ksW := rfl
@[simp] theorem resetCore_resW : (resetCore s).resW = State.reset.resW := rfl
@[simp] theorem resetCore_faults : (resetCore s).faults = s.faults := rfl
@[simp] theorem resetCore_agenda : (resetCore s).agenda = s.agenda := rfl
@[simp] theorem resetCore_rdata : (resetCore s).rdata = State.reset.rdata := rfl
@[simp] theorem resetCore_freeCount : (resetCore s).freeCount = s.freeCount := rfl

/-! A conditional `Unwritten` record changes the fault record only. -/

@[simp] theorem raiseUnwrittenIf_state (c : Bool) : (raiseUnwrittenIf c s).state = s.state := by
  cases c <;> rfl

@[simp] theorem raiseUnwrittenIf_ks (c : Bool) : (raiseUnwrittenIf c s).ks = s.ks := by
  cases c <;> rfl

@[simp] theorem raiseUnwrittenIf_rcon (c : Bool) : (raiseUnwrittenIf c s).rcon = s.rcon := by
  cases c <;> rfl

@[simp] theorem raiseUnwrittenIf_key0 (c : Bool) : (raiseUnwrittenIf c s).key0 = s.key0 := by
  cases c <;> rfl

@[simp] theorem raiseUnwrittenIf_key1 (c : Bool) : (raiseUnwrittenIf c s).key1 = s.key1 := by
  cases c <;> rfl

@[simp] theorem raiseUnwrittenIf_result (c : Bool) : (raiseUnwrittenIf c s).result = s.result := by
  cases c <;> rfl

@[simp] theorem raiseUnwrittenIf_busy (c : Bool) : (raiseUnwrittenIf c s).busy = s.busy := by
  cases c <;> rfl

@[simp] theorem raiseUnwrittenIf_done (c : Bool) : (raiseUnwrittenIf c s).done = s.done := by
  cases c <;> rfl

@[simp] theorem raiseUnwrittenIf_err (c : Bool) : (raiseUnwrittenIf c s).err = s.err := by
  cases c <;> rfl

@[simp] theorem raiseUnwrittenIf_errcode (c : Bool) : (raiseUnwrittenIf c s).errcode = s.errcode := by
  cases c <;> rfl

@[simp] theorem raiseUnwrittenIf_pending (c : Bool) : (raiseUnwrittenIf c s).pending = s.pending := by
  cases c <;> rfl

@[simp] theorem raiseUnwrittenIf_phase (c : Bool) : (raiseUnwrittenIf c s).phase = s.phase := by
  cases c <;> rfl

@[simp] theorem raiseUnwrittenIf_stateW (c : Bool) : (raiseUnwrittenIf c s).stateW = s.stateW := by
  cases c <;> rfl

@[simp] theorem raiseUnwrittenIf_ksW (c : Bool) : (raiseUnwrittenIf c s).ksW = s.ksW := by
  cases c <;> rfl

@[simp] theorem raiseUnwrittenIf_resW (c : Bool) : (raiseUnwrittenIf c s).resW = s.resW := by
  cases c <;> rfl

@[simp] theorem raiseUnwrittenIf_faults (c : Bool) : (raiseUnwrittenIf c s).faults =
    s.faults ++ (if c then [.modelFault .unwritten] else []) := by
  cases c <;> simp [raiseUnwrittenIf]

@[simp] theorem raiseUnwrittenIf_agenda (c : Bool) : (raiseUnwrittenIf c s).agenda = s.agenda := by
  cases c <;> rfl

@[simp] theorem raiseUnwrittenIf_rdata (c : Bool) : (raiseUnwrittenIf c s).rdata = s.rdata := by
  cases c <;> rfl

@[simp] theorem raiseUnwrittenIf_freeCount (c : Bool) : (raiseUnwrittenIf c s).freeCount = s.freeCount := by
  cases c <;> rfl

end Sys2Proof.Machine
end

