-- ==== Sys2Proof/Laws/Ops.lean ====
section
/-! SUPPORT. The byte packing of the window's registers, in both directions (20_memory.md R52). -/

namespace Sys2Proof.Machine

/-- R52: byte m of a packed word is the m-th byte. -/
theorem byteOf_packWord (b0 b1 b2 b3 : Byte) (m : Fin 4) :
    byteOf (packWord b0 b1 b2 b3) m.val = #v[b0, b1, b2, b3][m] := by
  fin_cases m <;>
  · simp only [byteOf, packWord]
    ext j hj
    simp only [BitVec.getElem_extractLsb', BitVec.getLsbD_append]
    simp
    interval_cases j <;> simp

/-- R52: packing the four bytes of a word gives the word. -/
theorem packWord_byteOf (v : Word) :
    packWord (byteOf v 0) (byteOf v 1) (byteOf v 2) (byteOf v 3) = v := by
  apply BitVec.eq_of_getLsbD_eq
  intro i hi
  simp only [packWord, byteOf, BitVec.getLsbD_append, BitVec.getLsbD_extractLsb']
  interval_cases i <;> simp

/-- R56: the bytes a host write of STATEj leaves in STATE. -/
theorem getElem_writeColumn_state (j : Fin 4) (v : Word) (s : State) (k : Nat) (hk : k < 16) :
    (writeColumn j v s).state[k] =
      if k / 4 = j.val then byteOf v (k % 4) else s.state[k] := by
  simp [writeColumn]

end Sys2Proof.Machine
end

