-- ==== Sys2Proof/Laws/PerInstr.lean ====
section
/-! SUPPORT. A statement made per command: the opcode and the reserved bits of its word. -/

namespace Sys2Proof.Laws.EncodeFields

/-- R70, R72: the word of a command holds its opcode in bits [3:0] and zero in its reserved bits. -/
def Statement (i : Instr) : Prop :=
  fieldOp (encode i) = opcode i ∧ reservedZero (encode i) = true

/-- The statement for a word assembled from a command's opcode. -/
theorem of_assemble {i : Instr} {kidx rnd : BitVec 4} {arg : Byte}
    (h : encode i = assemble (opcode i) kidx rnd arg) : Statement i := by
  unfold Statement
  rw [h]
  exact ⟨fieldOp_assemble _ _ _ _, reservedZero_assemble _ _ _ _⟩

theorem sbox (x : Byte) : Statement (.sbox x) := of_assemble rfl
theorem mul2 (x : Byte) : Statement (.mul2 x) := of_assemble rfl
theorem mul3 (x : Byte) : Statement (.mul3 x) := of_assemble rfl
theorem expand (k : BitVec 4) : Statement (.expand k) := of_assemble rfl
theorem round : Statement .round := of_assemble rfl
theorem final : Statement .final := of_assemble rfl
theorem ark (r : BitVec 4) : Statement (.ark r) := of_assemble rfl
theorem encrypt (k : BitVec 4) : Statement (.encrypt k) := of_assemble rfl

end Sys2Proof.Laws.EncodeFields
end

