-- ==== Sys2Proof/Laws/Window.lean ====
section
/-! SUPPORT. Everything a host access and a step can do, said once: the offsets of the window's
registers, the outcomes of an access, and the cases of a step. -/

namespace Sys2Proof.Machine

/-- R50: an offset of the window is decoded as itself. -/
@[simp] theorem windowOffset_base_add (off : Nat) (h : off < 0x100) :
    windowOffset (Config.base + off) = some off := by
  simp [windowOffset, h]

/-- R50: an address the core does not decode. -/
theorem windowOffset_outside (addr : Nat)
    (h : addr < Config.base ∨ Config.base + 0x100 ≤ addr) : windowOffset addr = none := by
  rw [windowOffset, if_neg (by omega)]

/-- R50, R55: a read of an address in the window is a read at its offset. -/
@[simp] theorem hostAccess_read (off size : Nat) (s : State) (h : off < 0x100) :
    hostAccess (.read (Config.base + off) size) s = hostRead off size s := by
  simp [hostAccess, h]

/-- R50, R56: a write of an address in the window is a write at its offset. -/
@[simp] theorem hostAccess_write (off size : Nat) (v : Word) (s : State) (h : off < 0x100) :
    hostAccess (.write (Config.base + off) size v) s = hostWrite off size v s := by
  simp [hostAccess, h]

/-- R200: a step whose next event is an access of the host. -/
theorem step_host (s : State) (a : Access) (rest : List Event) :
    step { s with agenda := .host a :: rest } = .next (hostAccess a { s with agenda := rest }) := rfl

/-- R51: the offset of STATEj. -/
@[simp] theorem regAt_state (j : Fin 4) : regAt (0x010 + 4 * j.val) = some (.state j) := by
  revert j; decide

/-- R51: the offset of KSn. -/
@[simp] theorem regAt_ks (n : Fin 44) : regAt (0x040 + 4 * n.val) = some (.ks n) := by
  revert n; decide

@[simp] theorem regAt_cmd : regAt 0x000 = some .cmd := rfl
@[simp] theorem regAt_status : regAt 0x004 = some .status := rfl
@[simp] theorem regAt_result : regAt 0x008 = some .result := rfl

/-- R51, R54: the offsets that name no register. -/
theorem regAt_eq_none (off : Nat) :
    regAt off = none ↔ ¬ (off % 4 = 0 ∧ (off = 0 ∨ off = 4 ∨ off = 8 ∨ (0x10 ≤ off ∧ off < 0x20) ∨
      (0x40 ≤ off ∧ off < 0xF0))) := by
  unfold regAt
  repeat' split
  all_goals simp
  all_goals omega

/-- R55 to R57, R80: every outcome an access of the host can have. -/
inductive AccessOutcome (s : State) : State → Prop where
  /-- an address outside the window -/
  | outside : AccessOutcome s s
  /-- a legal read of written data or of CMD or STATUS -/
  | replied (v : Word) : AccessOutcome s (reply v s)
  /-- a read of unwritten data -/
  | unwritten (v : Word) : AccessOutcome s (reply v (raiseModelFault .unwritten s))
  /-- a read of a data register while busy -/
  | hazardRead (h : s.busy = true) : AccessOutcome s (hazardReply s)
  /-- a STATE write while busy -/
  | hazardWrite (h : s.busy = true) : AccessOutcome s (raiseModelFault .hazard s)
  /-- a bad read -/
  | badRead : AccessOutcome s (reply 0 (raiseError .badAccess s))
  /-- a bad write -/
  | badWrite : AccessOutcome s (raiseError .badAccess s)
  /-- a STATE write -/
  | column (j : Fin 4) (v : Word) (h : s.busy = false) : AccessOutcome s (writeColumn j v s)
  /-- a CMD write while busy -/
  | refusedBusy (h : s.busy = true) : AccessOutcome s (raiseError .cmdBusy s)
  /-- a CMD write of an illegal word -/
  | refusedIllegal (v : Word) (e : Illegal) (h : s.busy = false) (hd : decode v = .error e) :
      AccessOutcome s (raiseError .illegalCmd s)
  /-- a CMD write that is accepted -/
  | accepted (v : Word) (i : Instr) (h : s.busy = false) (hd : decode v = .ok i) :
      AccessOutcome s (accept v (raiseUnwrittenIf (readsKs i && !s.ksW)
        (raiseUnwrittenIf (readsState i && !stateWritten s) s)))

theorem readData_outcome (mark : Bool) (v : Word) (s : State) :
    AccessOutcome s (readData mark v s) := by
  unfold readData
  split
  · exact .hazardRead ‹_›
  · cases mark
    · exact .unwritten v
    · exact .replied v

theorem presentCommand_outcome (v : Word) (s : State) : AccessOutcome s (presentCommand v s) := by
  unfold presentCommand
  cases hb : s.busy
  · simp only [Bool.false_eq_true, if_false]
    cases hd : decode v with
    | error e => exact .refusedIllegal v e hb hd
    | ok i => exact .accepted v i hb hd
  · exact .refusedBusy hb

theorem hostRead_outcome (off size : Nat) (s : State) : AccessOutcome s (hostRead off size s) := by
  unfold hostRead
  split
  · rename_i r _
    cases r
    · exact .replied 0
    · exact .replied _
    all_goals exact readData_outcome _ _ s
  · exact .badRead

theorem hostWrite_outcome (off size : Nat) (v : Word) (s : State) :
    AccessOutcome s (hostWrite off size v s) := by
  unfold hostWrite
  split
  · exact presentCommand_outcome v s
  · rename_i j _
    unfold writeStateReg
    cases hb : s.busy
    · exact .column j v hb
    · exact .hazardWrite hb
  all_goals exact .badWrite

/-- Everything an access of the host can do. -/
theorem hostAccess_outcome (a : Access) (s : State) : AccessOutcome s (hostAccess a s) := by
  cases a <;> simp only [hostAccess] <;> split
  · exact hostRead_outcome _ _ s
  · exact .outside
  · exact hostWrite_outcome _ _ _ s
  · exact .outside

/-- R201: the engine's turn on a pending command that decodes is that command's meaning. -/
theorem engineTurn_of_decode {s : State} {v : Word} {i : Instr} (hp : s.pending = some v)
    (hd : decode v = .ok i) : engineTurn s = exec i s := by
  simp [engineTurn, hp, hd]

/-- Everything a step that answers a next state can do. -/
theorem step_next_cases {s t : State} (h : step s = .next t) :
    (∃ a rest, s.agenda = .host a :: rest ∧ t = hostAccess a { s with agenda := rest })
    ∨ (∃ rest, s.agenda = .reset :: rest ∧ t = resetCore { s with agenda := rest })
    ∨ ((s.agenda = [] ∨ s.agenda.head? = some .engine) ∧
        ((s.pending = none ∧ t = { s with agenda := s.agenda.tail })
        ∨ ∃ v i, s.pending = some v ∧ decode v = .ok i ∧
            exec i { s with agenda := s.agenda.tail } = .next t)) := by
  have turn : ∀ u : State, u.pending = s.pending → engineTurn u = .next t →
      (s.pending = none ∧ t = u) ∨ ∃ v i, s.pending = some v ∧ decode v = .ok i ∧
        exec i u = .next t := by
    intro u hu he
    unfold engineTurn at he
    rw [hu] at he
    cases hp : s.pending with
    | none => rw [hp] at he; cases he; exact .inl ⟨rfl, rfl⟩
    | some v =>
      rw [hp] at he
      cases hd : decode v with
      | ok i => simp only [hd] at he; exact .inr ⟨v, i, rfl, hd, he⟩
      | error e => simp [hd] at he
  unfold step at h
  cases ha : s.agenda with
  | nil =>
    rw [ha] at h
    have hs : { s with agenda := [] } = s := by rw [← ha]
    exact .inr (.inr ⟨.inl rfl, by simpa [hs] using turn s rfl h⟩)
  | cons e rest =>
    rw [ha] at h
    cases e with
    | host a => cases h; exact .inl ⟨a, rest, rfl, rfl⟩
    | engine => exact .inr (.inr ⟨.inr rfl, turn _ rfl h⟩)
    | reset => cases h; exact .inr (.inl ⟨rest, rfl, rfl⟩)

end Sys2Proof.Machine
end

