-- ==== Sys2Proof/Tests/Slice0.lean ====
section
/-! SUPPORT. Tests of the model against the spec's own vectors (95_test_vectors.md) and encodings, and
for every statement of Certificates/Slice0/Obligations.lean with hypotheses a witness that meets them. -/

namespace Sys2Proof.Tests

open Sys2Proof.Machine

/-! ## Helpers -/

/-- The zero block. -/
def zeros : Block := Vector.replicate 16 0

/-- The key of V21 and V62. -/
def keyA : Block :=
  #v[0x2b, 0x7e, 0x15, 0x16, 0x28, 0xae, 0xd2, 0xa6, 0xab, 0xf7, 0x15, 0x88, 0x09, 0xcf, 0x4f, 0x3c]

/-- The bytes 00 01 .. 0f. -/
def counting : Block := #v[0, 1, 2, 3, 4, 5, 6, 7, 8, 9, 10, 11, 12, 13, 14, 15]

/-- A core with KEY0 zero and KEY1 the key of V21, after reset. -/
def start : State := { State.reset with key0 := zeros, key1 := keyA }

/-- The core with every mark set and the given STATE. -/
def loaded (b : Block) : State :=
  { start with state := b, stateW := #v[true, true, true, true], ksW := true, resW := true }

/-- The next state of an outcome, if it is one, has the property. -/
def nextIs (o : Host.Outcome State Fault Refusal) (p : State → Bool) : Bool :=
  match o with
  | .next t => p t
  | .fault _ => false
  | .refused _ => false

/-! ## WellFormed and the decoder -/

/-- R75: RND 11 names no round key, 10 does. -/
theorem test_wellFormed_ark : wellFormed (.ark 11) = false ∧ wellFormed (.ark 10) = true := by decide

/-- V10: SBOX 0xFF is the word 0x00FF0001. -/
theorem test_decode_sbox : decode 0x00FF0001 = .ok (.sbox 0xFF) := by decide
/-- R105: MUL2 0x57 is the word 0x00570002. -/
theorem test_decode_mul2 : decode 0x00570002 = .ok (.mul2 0x57) := by decide
/-- R107: MUL3 0x57 is the word 0x00570003. -/
theorem test_decode_mul3 : decode 0x00570003 = .ok (.mul3 0x57) := by decide
/-- V70: EXPAND 1. -/
theorem test_decode_expand : decode 0x00000014 = .ok (.expand 1) := by decide
/-- R141. -/
theorem test_decode_round : decode 0x00000005 = .ok .round := by decide
/-- R151. -/
theorem test_decode_final : decode 0x00000006 = .ok .final := by decide
/-- V70: ARK 10. -/
theorem test_decode_ark : decode 0x00000A07 = .ok (.ark 10) := by decide
/-- V70: ENCRYPT 15. -/
theorem test_decode_encrypt : decode 0x000000F8 = .ok (.encrypt 15) := by decide
/-- V70: the illegal words. -/
theorem test_decode_illegal :
    [0x00000000, 0x00000009, 0x0000000F, 0x0000F001, 0x01000001, 0x00000011, 0x00010008, 0x00000015,
      0x00000B07, 0x00000F07, 0x00000106].all (fun v : Word => !legal v && (decode v).toOption.isNone)
      = true := by decide
/-- The host's query gives the decoder's command. -/
theorem test_decodeTableWord : decodeTableWord 32 0x00000A07 = some (.ark 10) := by decide

/-! ## The commands, against the spec's vectors -/

/-- R102's example: SBOX 0x53 leaves 0xED in RESULT. -/
theorem test_sbox : nextIs (exec (.sbox 0x53) start) (fun t => t.result == 0xED && t.resW) = true := by
  decide
/-- V10: S(0x52) = 0x00 and S(0x10) = 0xCA: the row is the high digit. -/
theorem test_sbox_row : sbox 0x52 = 0x00 ∧ sbox 0x10 = 0xCA ∧ sbox 0x01 = 0x7C := by decide
/-- V11: doubling 0x80 leaves the reduction constant. -/
theorem test_mul2 : nextIs (exec (.mul2 0x80) start) (fun t => t.result == 0x1B) = true := by decide
/-- V11: doubling 0xFF and 0x7F. -/
theorem test_xtime : xtime 0xFF = 0xE5 ∧ xtime 0x7F = 0xFE := by decide
/-- V12: 3 times 0x80. -/
theorem test_mul3 : nextIs (exec (.mul3 0x80) start) (fun t => t.result == 0x9B) = true := by decide
/-- V12: 3 times 0xFF and 0x53. -/
theorem test_mul3_values : mul3 0xFF = 0x1A ∧ mul3 0x53 = 0xF5 := by decide
/-- V20: the last round key of the zero key. -/
theorem test_expand : nextIs (exec (.expand 0) start) (fun t =>
    roundKey t.ks 10 == #v[0xb4, 0xef, 0x5b, 0xcb, 0x3e, 0x92, 0xe2, 0x11, 0x23, 0xe9, 0x51, 0xcf,
      0x6f, 0x8f, 0x18, 0x8e]) = true := by decide +kernel
/-- V21, R74: key index 15 selects KEY1, round key 1 of the key of V21. -/
theorem test_expand_key1 : nextIs (exec (.expand 15) start) (fun t =>
    roundKey t.ks 1 == #v[0xa0, 0xfa, 0xfe, 0x17, 0x88, 0x54, 0x2c, 0xb1, 0x23, 0xa3, 0x39, 0x39,
      0x2a, 0x6c, 0x76, 0x05]) = true := by decide +kernel
/-- V30: ROUND on 00 01 .. 0f, every row shifted differently. -/
theorem test_round : nextIs (exec .round (loaded counting)) (fun t =>
    t.state == #v[0x6a, 0x6a, 0x5c, 0x45, 0x2c, 0x6d, 0x33, 0x51, 0xb0, 0xd9, 0x5d, 0x61, 0x27, 0x9c,
      0x21, 0x5c]) = true := by decide +kernel
/-- V31: MixColumns of one column. -/
theorem test_mixColumn : mixColumn #v[0xdb, 0x13, 0x53, 0x45] = #v[0x8e, 0x4d, 0xa1, 0xbc]
    ∧ mixColumn #v[0x2d, 0x26, 0x31, 0x4c] = #v[0x4d, 0x7e, 0xbd, 0xf8] := by decide
/-- V40: FINAL on 00 01 .. 0f. -/
theorem test_final : nextIs (exec .final (loaded counting)) (fun t =>
    t.state == #v[0x63, 0x6b, 0x67, 0x76, 0xf2, 0x01, 0xab, 0x7b, 0x30, 0xd7, 0x77, 0xc5, 0xfe, 0x7c,
      0x6f, 0x2b]) = true := by decide +kernel
/-- V30: ShiftRows of 00 01 .. 0f. -/
theorem test_shiftRows : shiftRows counting = #v[0, 5, 10, 15, 4, 9, 14, 3, 8, 13, 2, 7, 12, 1, 6, 11] := by
  decide
/-- V50: ARK 10 on the zero state leaves the round key, here the bytes 160 .. 175 of KS. -/
theorem test_ark : nextIs (exec (.ark 10) { loaded zeros with
    ks := Vector.ofFn fun j : Fin 176 => BitVec.ofNat 8 j.val }) (fun t =>
    t.state == #v[160, 161, 162, 163, 164, 165, 166, 167, 168, 169, 170, 171, 172, 173, 174, 175])
      = true := by decide +kernel
/-- R75: RND 11 stops. -/
theorem test_ark_unnamed : exec (.ark 11) start = .fault .noSuchRoundKey := rfl
/-- V1: the source's known-answer test, with KEY0 zero. -/
theorem test_encrypt : nextIs (exec (.encrypt 0) (loaded zeros)) (fun t =>
    t.state == #v[0x66, 0xe9, 0x4b, 0xd4, 0xef, 0x8a, 0x2c, 0x3b, 0x88, 0x4c, 0xfa, 0x59, 0xca, 0x34,
      0x2b, 0x2e]) = true := by decide +kernel

/-! ## The window, against V71 -/

/-- V71: a read of CMD returns 0 without error; a read of STATUS after reset returns 0. -/
theorem test_read_control : (hostRead 0x000 4 start).rdata = some 0 ∧ (hostRead 0x000 4 start).faults = []
    ∧ (hostRead 0x004 4 start).rdata = some 0 := by decide
/-- V71: a read of RESULT after reset is the model fault Unwritten. -/
theorem test_read_unwritten : (hostRead 0x008 4 start).faults = [.modelFault .unwritten] := by decide
/-- V71: an unmapped, a misaligned and an 8-bit read are BAD_ACCESS and return 0. -/
theorem test_read_bad : ([(0x00C, 4), (0x011, 4), (0x010, 1), (0x0F0, 4)].all fun a : Nat × Nat =>
    (hostRead a.1 a.2 start).errcode == .badAccess && (hostRead a.1 a.2 start).rdata == some 0)
      = true := by decide
/-- V71: a write to STATUS or KS0 is BAD_ACCESS, in STATUS the ERR bit and code 0x3 (R30, R204). -/
theorem test_write_bad : (hostWrite 0x004 4 1 start).errcode = .badAccess
    ∧ (hostWrite 0x040 4 1 start).errcode = .badAccess
    ∧ statusWord (hostWrite 0x004 4 1 start) = 0x00000034 := by decide
/-- P2 step 2: the word 0xA8F64332 written to STATE0 is the bytes 32 43 f6 a8. -/
theorem test_write_state : (hostWrite 0x010 4 0xA8F64332 start).state =
    #v[0x32, 0x43, 0xf6, 0xa8, 0, 0, 0, 0, 0, 0, 0, 0, 0, 0, 0, 0] := by decide
/-- V20: KS10 of the schedule is the word of bytes 40 .. 43, the lowest byte in bits [7:0]. -/
theorem test_read_ks : (hostRead 0x068 4 { start with
      ksW := true
      ks := Vector.ofFn fun j : Fin 176 => BitVec.ofNat 8 j.val }).rdata = some 0x2B2A2928 := by
  decide +kernel
/-- V71: a STATE read while busy is the model fault Hazard. -/
theorem test_read_hazard : (hostRead 0x010 4 { start with busy := true }).faults =
    [.modelFault .hazard] := by decide
/-- V71: STATUS is 0x25 after an ENCRYPT is accepted and a second CMD write comes before the engine
step; it is 0x16 after a completed command and then an illegal one. -/
theorem test_status : statusWord (hostWrite 0x000 4 0x00000005 (hostWrite 0x000 4 0x00000008
      (loaded zeros))) = 0x00000025
    ∧ statusWord (hostWrite 0x000 4 0x00000009 (complete start)) = 0x00000016 := by decide
/-- V71: the latch keeps the first error. -/
theorem test_latch : statusWord (hostRead 0x00C 4 (hostWrite 0x000 4 0x00000009 (complete start)))
    = 0x00000016 := by decide

/-! ## The step -/

/-- The first step after reset runs the command that stands in PENDING. -/
theorem test_step_after_reset : nextIs (step (State.reset.withFetchWord 32 0x00530001))
    (fun t => t.result == 0xED && t.done && !t.busy) = true := by decide
/-- With an agenda, the engine moves first and the agenda stays. -/
theorem test_step_keeps_agenda :
    nextIs (step (State.withFetchWord { start with agenda := [.reset] } 32 0x00570002))
      (fun t => t.result == 0xAE && t.agenda == [.reset]) = true := by decide
/-- R230: the reset input abandons a pending command and keeps the fault record. -/
theorem test_reset : nextIs (step { loaded counting with
      pending := some 5, busy := true, faults := [.modelFault .hazard], agenda := [.reset] })
    (fun t => !t.busy && t.pending.isNone && !t.ksW && t.faults == [.modelFault .hazard]) = true := by
  decide
/-- A pending word that decodes to nothing stops. -/
theorem test_pending_illegal : step { start with pending := some 0 } = .fault .pendingIllegal := rfl

/-! ## Witnesses for the statements' hypotheses -/

theorem witness_DecodeOfEncode : WellFormed (.ark 0) ∧ WellFormed (.ark 10) ∧ WellFormed (.encrypt 15) := by
  decide

theorem witness_EncodeOfDecode :
    decode 0x00000007 = .ok (.ark 0) ∧ decode 0x00FF0003 = .ok (.mul3 0xFF) := by decide

theorem witness_KeyIndexSelectsRootKey : (1 : BitVec 4) ≠ 0 ∧ (15 : BitVec 4) ≠ 0 := by decide

theorem witness_ScheduleWordRecurrence : (0 < 40 ∧ 0 % 4 = 0) ∧ (39 < 40 ∧ 39 % 4 ≠ 0) := by decide

theorem witness_RoundCompletes : (0 : Fin 16).val % 4 = 0 ∧ (12 : Fin 16).val % 4 = 0 := by decide

theorem witness_ArkCompletes : (0 : BitVec 4).toNat ≤ 10 ∧ (10 : BitVec 4).toNat ≤ 10 := by decide

theorem witness_ArkStopsOnUnnamedRoundKey :
    10 < (11 : BitVec 4).toNat ∧ 10 < (15 : BitVec 4).toNat := by decide

theorem witness_ArkTwiceRestoresState : (10 : BitVec 4).toNat ≤ 10 := by decide

theorem witness_ArkUsesTheLastSchedule :
    (∃ t u, exec (.expand 1) start = .next t ∧ exec (.ark 10) t = .next u)
    ∧ (∃ t u, exec (.encrypt 0) start = .next t ∧ exec (.ark 0) t = .next u) :=
  ⟨⟨_, _, rfl, rfl⟩, ⟨_, _, rfl, rfl⟩⟩

theorem witness_EncryptDependsOnKeyAndStateOnly :
    let other := { start with result := 1, ksW := true }
    start ≠ other ∧ rootKey 1 start = rootKey 2 other ∧ start.state = other.state
    ∧ (∃ s', exec (.encrypt 1) start = .next s') ∧ ∃ t', exec (.encrypt 2) other = .next t' := by
  refine ⟨fun h => (Bool.noConfusion (congrArg State.ksW h) : False), rfl, rfl, ⟨_, rfl⟩, ⟨_, rfl⟩⟩

theorem witness_EncryptEqualsItsComponents : start.phase = .idle := rfl

theorem witness_CipherIsInjective : (cipher keyA counting).1 = (cipher keyA counting).1 := rfl

theorem witness_CommandsFrame : (∃ t, exec .final start = .next t)
    ∧ (∃ t, exec (.ark 10) start = .next t) ∧ ∃ t, exec (.encrypt 3) start = .next t :=
  ⟨⟨_, rfl⟩, ⟨_, rfl⟩, ⟨_, rfl⟩⟩

/-- A state of each error code. -/
theorem witness_StatusRegister :
    start.errcode = .none ∧ ({ start with errcode := .illegalCmd } : State).errcode = .illegalCmd
    ∧ ({ start with errcode := .cmdBusy } : State).errcode = .cmdBusy
    ∧ ({ start with errcode := .badAccess } : State).errcode = .badAccess := by decide

theorem witness_BusyDataAccessIsHazard :
    0x010 = 0x010 + 4 * (0 : Fin 4).val ∧ 0x01C = 0x010 + 4 * (3 : Fin 4).val
    ∧ 0x040 = 0x040 + 4 * (0 : Fin 44).val ∧ 0x0EC = 0x040 + 4 * (43 : Fin 44).val := by decide

/-- Offsets at the edges of the mapped ranges, a misaligned one and a wrong size are not readable; a
read-only register is not writable. -/
theorem witness_BadAccessRaisesError :
    (¬ ((4 : Nat) = 4 ∧ 0x0C % 4 = 0 ∧ (0x0C = 0 ∨ 0x0C = 4 ∨ 0x0C = 8 ∨ (0x10 ≤ 0x0C ∧ 0x0C < 0x20)
      ∨ (0x40 ≤ 0x0C ∧ 0x0C < 0xF0))))
    ∧ (¬ ((4 : Nat) = 4 ∧ 0xF0 % 4 = 0 ∧ (0xF0 = 0 ∨ 0xF0 = 4 ∨ 0xF0 = 8 ∨ (0x10 ≤ 0xF0 ∧ 0xF0 < 0x20)
      ∨ (0x40 ≤ 0xF0 ∧ 0xF0 < 0xF0))))
    ∧ (¬ ((2 : Nat) = 4 ∧ 0x10 % 4 = 0 ∧ (0x10 = 0 ∨ (0x10 ≤ 0x10 ∧ 0x10 < 0x20))))
    ∧ (¬ ((4 : Nat) = 4 ∧ 0x40 % 4 = 0 ∧ (0x40 = 0 ∨ (0x10 ≤ 0x40 ∧ 0x40 < 0x20)))) := by decide

theorem witness_OutsideTheWindowNothingChanges : Config.base + 0x100 ≤ Config.base + 0x100 :=
  Nat.le_refl _

theorem witness_ReadsHaveNoSideEffects :
    (∃ t, step { start with agenda := [.host (.read (Config.base + 0x0EC) 4)] } = .next t)
    ∧ 0x0EC < 0x100 ∧ regAt 0x0EC ≠ none ∧ (start.busy = true → 0x0EC = 0x000 ∨ 0x0EC = 0x004)
    ∧ ({ start with busy := true } : State).busy = true ∧ regAt 0x004 ≠ none :=
  ⟨⟨_, rfl⟩, by decide, by decide, by decide, by decide, by decide⟩

theorem witness_CommandAcceptance :
    ({ start with busy := true } : State).busy = true ∧ start.busy = false ∧ legal 0x00000B07 = false
    ∧ legal 0x00000A07 = true ∧ legal 0x00000005 = true ∧ legal 0x00000004 = true := by decide

theorem witness_StepRunsThePendingCommand : decode 0x000000F8 = .ok (.encrypt 15) := by decide

/-- For each clause: an error already latched, the first error, and no error. -/
theorem witness_ErrorLatchKeepsTheFirstError :
    let bad := .host (.read (Config.base + 0x00C) 4)
    let latched := { start with err := true, errcode := .cmdBusy, agenda := [bad] }
    let first := { start with agenda := [bad] }
    (latched.NoReset ∧ latched.err = true ∧ ∃ t, step latched = .next t)
    ∧ (first.NoReset ∧ first.err = false ∧ ∃ t, step first = .next t ∧ t.err = true
      ∧ t.faults = first.faults ++ [.hardwareError .badAccess])
    ∧ (start.NoReset ∧ ∃ t, step start = .next t ∧ t.err = false) := by
  refine ⟨⟨by simp, rfl, _, rfl⟩, ⟨by simp, rfl, _, rfl, by simp [hostRead]; rfl, by simp [hostRead]; rfl⟩,
    ⟨by simp [start, State.reset], _, rfl, rfl⟩⟩

theorem witness_FaultRecordOnlyGrows : ∃ t, step start = .next t := ⟨_, rfl⟩

/-- A host write, a command and a reset, each of which changes STATE. -/
theorem witness_OnlyTheseStepsWriteState :
    (∃ t, step { start with agenda := [.host (.write (Config.base + 0x01C) 4 0xFF)] } = .next t
      ∧ t.state ≠ start.state)
    ∧ (∃ t, step { start with pending := some 0x00000006 } = .next t ∧ t.state ≠ start.state)
    ∧ ∃ t, step { loaded counting with agenda := [.reset] } = .next t
      ∧ t.state ≠ (loaded counting).state := by
  refine ⟨⟨_, rfl, ?_⟩, ⟨_, rfl, by decide +kernel⟩, ⟨_, rfl, by decide⟩⟩
  rw [hostAccess_write 0x01C 4 0xFF _ (by decide)]
  decide

/-- A command and a reset, each of which changes KS, and each command of the second clause. -/
theorem witness_OnlyTheseStepsWriteSchedule :
    (∃ t, step { start with pending := some 0x00000014 } = .next t ∧ t.ks ≠ start.ks)
    ∧ (∃ t, step { start with ks := Vector.replicate 176 1, agenda := [.reset] } = .next t
      ∧ t.ks ≠ Vector.replicate 176 1)
    ∧ State.Runs { start with pending := some 0x00000014 } (.expand 1)
    ∧ State.Runs { start with pending := some 0x00000008, agenda := [.engine] } (.encrypt 0) := by
  refine ⟨⟨_, rfl, ?_⟩, ⟨_, rfl, by decide +kernel⟩, by decide, by decide⟩
  intro h
  have := congrArg (fun w : Schedule => w[0]) h
  revert this
  decide +kernel

theorem witness_OnlyTheseStepsWriteResult :
    (∃ t, step { start with pending := some 0x00000001 } = .next t ∧ t.result ≠ start.result)
    ∧ ∃ t, step { start with result := 1, agenda := [.reset] } = .next t ∧ t.result ≠ 1 := by
  refine ⟨⟨_, rfl, by decide⟩, ⟨_, rfl, by decide⟩⟩

theorem witness_RootKeysNeverChange : ∃ t, step { start with agenda := [.reset] } = .next t := ⟨_, rfl⟩

/-- For each clause: marks set before a step, a reset, a STATE write, and a command of each kind. -/
theorem witness_WrittenMarks :
    ((loaded zeros).NoReset ∧ (loaded zeros).stateW[3] = true ∧ (loaded zeros).ksW = true
      ∧ (loaded zeros).resW = true)
    ∧ (∃ t, step { loaded zeros with agenda := [.reset] } = .next t)
    ∧ (∃ t, step { start with agenda := [.host (.write (Config.base + (0x010 + 4 * (3 : Fin 4).val)) 4 0)] }
      = .next t)
    ∧ State.Runs { start with pending := some 0x00000004 } (.expand 0)
    ∧ State.Runs { start with pending := some 0x00FF0003 } (.mul3 0xFF)
    ∧ State.Runs { start with pending := some 0x00000A07 } (.ark 10) := by
  refine ⟨by decide, ⟨_, rfl⟩, ⟨_, rfl⟩, by decide, by decide, by decide⟩

/-- For each clause: a command, an accepted and each kind of refused CMD write, and a change of DONE. -/
theorem witness_DoneBit :
    State.Runs { start with pending := some 0x00000005 } .round
    ∧ (∃ t, step { start with agenda := [.host (.write (Config.base + 0x000) 4 0x00000005)] } = .next t)
    ∧ start.busy = false ∧ legal 0x00000005 = true ∧ legal 0x00000000 = false
    ∧ (∃ t, step { start with pending := some 0x00000005 } = .next t ∧ t.done ≠ start.done) := by
  refine ⟨by decide, ⟨_, rfl⟩, by decide, by decide, by decide, ⟨_, rfl, by decide⟩⟩

/-- A busy state and an idle one with an error latched have the invariant and step. -/
theorem witness_EveryStepKeepsTheInvariant :
    (State.Inv { start with pending := some 0x00000005, busy := true }
      ∧ ∃ t, step { start with pending := some 0x00000005, busy := true } = .next t)
    ∧ State.Inv { start with
        err := true
        errcode := .illegalCmd
        faults := [.hardwareError .illegalCmd] } := by
  refine ⟨⟨by decide, _, rfl⟩, by decide⟩

theorem witness_NoStepStops : State.Inv start := by decide

theorem witness_EveryRunThroughTheAgendaEndsIdle :
    State.Inv { start with pending := some 0x00000008, busy := true, agenda := [.engine, .reset] } := by
  decide

/-- An obeying host that reads a written register, and one whose next event is not an access. -/
theorem witness_ObeyingHostMeetsNoFault :
    let reads := { loaded zeros with agenda := [.host (.read (Config.base + 0x0EC) 4)] }
    (reads.Inv ∧ reads.Clean ∧ reads.HostObeys = true ∧ ∃ t, step reads = .next t)
    ∧ start.Inv ∧ start.Clean ∧ start.HostObeys = true := by
  refine ⟨⟨by decide, rfl, ?_, _, rfl⟩, by decide, rfl, rfl⟩
  simp only [State.HostObeys, accessAllowed, windowOffset_base_add 0x0EC (by decide)]
  decide

/-- Each clause: a hazard before the engine's turn, and a turn on an empty agenda with no access. -/
theorem witness_PendingCommandTakesEffect :
    let accesses : List Access := [.read (Config.base + 0x010) 4]
    let s : State := { start with
      pending := some 0x00000018, busy := true
      agenda := accesses.map Event.host ++ .engine :: [Event.reset] }
    let idle : State := { start with pending := some 0x00000A07, busy := true }
    (s.busy = true ∧ s.pending = some (0x00000018 : Word) ∧ decode 0x00000018 = .ok (.encrypt 1)
      ∧ s.agenda = accesses.map Event.host ++ .engine :: [Event.reset])
    ∧ idle.busy = true ∧ idle.pending = some 0x00000A07 ∧ decode 0x00000A07 = .ok (.ark 10)
      ∧ idle.agenda = ([] : List Access).map Event.host := by
  refine ⟨⟨rfl, rfl, by decide, rfl⟩, rfl, rfl, by decide, rfl⟩

end Sys2Proof.Tests
end

section
/-! The scope of the core: what an access outside its window does (00_scope.md R9, R50). -/

namespace Sys2Proof.Machine

/-- R50: a read outside the window is not the core's (log entry 3). -/
theorem hostAccess_read_outside (addr size : Nat) (s : State)
    (h : addr < Config.base ∨ Config.base + 0x100 ≤ addr) :
    hostAccess (.read addr size) s = s := by
  simp [hostAccess, windowOffset_outside addr h]

/-- R50: a write outside the window is not the core's (log entry 3). -/
theorem hostAccess_write_outside (addr size : Nat) (v : Word) (s : State)
    (h : addr < Config.base ∨ Config.base + 0x100 ≤ addr) :
    hostAccess (.write addr size v) s = s := by
  simp [hostAccess, windowOffset_outside addr h]

/-- Settles O41: a step on a host access is that access, which is no change outside the window. -/
theorem outsideTheWindowNothingChanges : Obligations.OutsideTheWindowNothingChanges := by
  intro s rest addr size v outside
  constructor
  · rw [step_host, hostAccess_read_outside addr size _ outside]
  · rw [step_host, hostAccess_write_outside addr size v _ outside]

end Sys2Proof.Machine
end

section
/-! The decoder and the decoding predicate agree (30_encoding.md R73, R77, R78). -/

namespace Sys2Proof

/-- R78: the mask of the `len` bits of a word from bit `start` on. -/
def fieldMask (start len : Nat) : Word := (BitVec.allOnes len).setWidth 32 <<< start

/-- R78: a masked field is zero exactly when the field is. -/
theorem and_fieldMask_eq_zero (v : Word) (start len : Nat) (h : start + len ≤ 32) :
    v &&& fieldMask start len = 0#32 ↔ v.extractLsb' start len = 0#len := by
  constructor <;> intro zero
  · ext j hj
    have bit := congrArg (·.getLsbD (start + j)) zero
    simpa [fieldMask, hj, show start + j < 32 by omega] using bit
  · ext j hj
    by_cases inside : start ≤ j ∧ j - start < len
    · have bit := congrArg (·.getLsbD (j - start)) zero
      have clear : v.getLsbD j = false := by
        simpa [inside, show start + (j - start) = j by omega] using bit
      simp [← BitVec.getLsbD_eq_getElem, clear]
    · simp [fieldMask]
      omega

/-- R78: the mask of the commands whose operand is ARG. -/
theorem and_argMask_eq_zero (v : Word) : v &&& 0xFF00FFF0 = 0 ↔
    reservedZero v = true ∧ fieldKidx v = 0 ∧ fieldRnd v = 0 := by
  rw [show (0xFF00FFF0 : Word) =
    fieldMask 12 4 ||| fieldMask 24 8 ||| fieldMask 4 4 ||| fieldMask 8 4 by decide]
  simp [BitVec.and_or_distrib_left, and_fieldMask_eq_zero, reservedZero, fieldLowReserved,
    fieldHighReserved, fieldKidx, fieldRnd, and_assoc]

/-- R78: the mask of the commands whose operand is KIDX. -/
theorem and_kidxMask_eq_zero (v : Word) : v &&& 0xFFFFFF00 = 0 ↔
    reservedZero v = true ∧ fieldRnd v = 0 ∧ fieldArg v = 0 := by
  rw [show (0xFFFFFF00 : Word) =
    fieldMask 12 4 ||| fieldMask 24 8 ||| fieldMask 8 4 ||| fieldMask 16 8 by decide]
  simp [BitVec.and_or_distrib_left, and_fieldMask_eq_zero, reservedZero, fieldLowReserved,
    fieldHighReserved, fieldArg, fieldRnd, and_assoc]

/-- R78: the mask of ARK. -/
theorem and_rndMask_eq_zero (v : Word) : v &&& 0xFFFFF0F0 = 0 ↔
    reservedZero v = true ∧ fieldKidx v = 0 ∧ fieldArg v = 0 := by
  rw [show (0xFFFFF0F0 : Word) =
    fieldMask 12 4 ||| fieldMask 24 8 ||| fieldMask 4 4 ||| fieldMask 16 8 by decide]
  simp [BitVec.and_or_distrib_left, and_fieldMask_eq_zero, reservedZero, fieldLowReserved,
    fieldHighReserved, fieldArg, fieldKidx, and_assoc]

/-- R78: the mask of the commands without operands. -/
theorem and_bareMask_eq_zero (v : Word) : v &&& 0xFFFFFFF0 = 0 ↔
    reservedZero v = true ∧ fieldKidx v = 0 ∧ fieldRnd v = 0 ∧ fieldArg v = 0 := by
  rw [show (0xFFFFFFF0 : Word) =
    fieldMask 12 4 ||| fieldMask 24 8 ||| fieldMask 4 4 ||| fieldMask 8 4 ||| fieldMask 16 8 by
      decide]
  simp [BitVec.and_or_distrib_left, and_fieldMask_eq_zero, reservedZero, fieldLowReserved,
    fieldHighReserved, fieldArg, fieldRnd, fieldKidx, and_assoc]

theorem decodeArg_ok (v : Word) (f : Byte → Instr) :
    (∃ i, decodeArg v f = .ok i) ↔ v &&& 0xFF00FFF0 = 0 := by
  rw [and_argMask_eq_zero, decodeArg]
  split <;> simp_all [and_assoc]

theorem decodeKidx_ok (v : Word) (f : BitVec 4 → Instr) :
    (∃ i, decodeKidx v f = .ok i) ↔ v &&& 0xFFFFFF00 = 0 := by
  rw [and_kidxMask_eq_zero, decodeKidx]
  split <;> simp_all [and_assoc]

theorem decodeRnd_ok (v : Word) (f : BitVec 4 → Instr) :
    (∃ i, decodeRnd v f = .ok i) ↔ v &&& 0xFFFFF0F0 = 0 ∧ (fieldRnd v).toNat ≤ 10 := by
  rw [and_rndMask_eq_zero, decodeRnd]
  split
  · split <;> simp_all [roundKeyNamed]
  · simp_all

theorem decodeBare_ok (v : Word) (i : Instr) :
    (∃ j, decodeBare v i = .ok j) ↔ v &&& 0xFFFFFFF0 = 0 := by
  rw [and_bareMask_eq_zero, decodeBare]
  split <;> simp_all [and_assoc]

/-- R77, R78: a word decodes to a command exactly when it is legal. -/
theorem decode_ok_iff_legal (v : Word) : (∃ i, decode v = .ok i) ↔ legal v = true := by
  unfold decode legal
  split_ifs with h1 h2 h3 h4 h5 h6 h7 h8 <;>
    simp_all [decodeArg_ok, decodeKidx_ok, decodeRnd_ok, decodeBare_ok]

/-- R80: a word that decodes is legal. -/
theorem legal_of_decode {v : Word} {i : Instr} (h : decode v = .ok i) : legal v = true :=
  (decode_ok_iff_legal v).1 ⟨i, h⟩

/-- R80: a word that is refused is illegal. -/
theorem not_legal_of_decode {v : Word} {e : Illegal} (h : decode v = .error e) :
    legal v = false := by
  rw [← Bool.not_eq_true, ← decode_ok_iff_legal, h]
  simp

/-- R75, R77: an ARK that a word decodes to names a round key. -/
theorem roundKeyNamed_of_decode {v : Word} {r : BitVec 4} (h : decode v = .ok (.ark r)) :
    r.toNat ≤ 10 := by
  unfold decode decodeArg decodeKidx decodeBare decodeRnd at h
  split_ifs at h <;> simp_all [roundKeyNamed]

end Sys2Proof
end

section
/-! What the engine's execution of a command can do, said once (60_exceptions.md R201). -/

namespace Sys2Proof.Machine

/-- R172: the state the orchestrator is in after its first key addition, with the working state `b` and
the phase `p`. -/
def orchestrating (k : Block) (s : State) (b : Block) (p : Phase) : State :=
  { writeState b (writeSchedule (expand k) (expansion k).rc s) with phase := p }

section
variable (k : Block) (s : State) (b : Block) (r : Fin 11)

@[simp] theorem orchestrating_ks (p : Phase) : (orchestrating k s b p).ks = expand k := rfl
@[simp] theorem orchestrating_key0 (p : Phase) : (orchestrating k s b p).key0 = s.key0 := rfl
@[simp] theorem orchestrating_key1 (p : Phase) : (orchestrating k s b p).key1 = s.key1 := rfl
@[simp] theorem orchestrating_result (p : Phase) :
    (orchestrating k s b p).result = s.result := rfl
@[simp] theorem orchestrating_err (p : Phase) : (orchestrating k s b p).err = s.err := rfl
@[simp] theorem orchestrating_errcode (p : Phase) :
    (orchestrating k s b p).errcode = s.errcode := rfl
@[simp] theorem orchestrating_phase (p : Phase) : (orchestrating k s b p).phase = p := rfl
@[simp] theorem orchestrating_stateW (p : Phase) :
    (orchestrating k s b p).stateW = Vector.replicate 4 true := rfl
@[simp] theorem orchestrating_ksW (p : Phase) : (orchestrating k s b p).ksW = true := rfl
@[simp] theorem orchestrating_resW (p : Phase) : (orchestrating k s b p).resW = s.resW := rfl
@[simp] theorem orchestrating_faults (p : Phase) :
    (orchestrating k s b p).faults = s.faults := rfl
@[simp] theorem orchestrating_agenda (p : Phase) :
    (orchestrating k s b p).agenda = s.agenda := rfl

/-- R172: the expansion and the first key addition. -/
theorem runPhases_three : runPhases k 3 { s with phase := .idle } =
    orchestrating k s (ark s.state (roundKey (expand k) 0)) (.roundTransform 1) := rfl

theorem advance_orchestrating_keyAddition : advance k (orchestrating k s b (.keyAddition r)) =
    orchestrating k s (ark b (roundKey (expand k) r)) (nextPhase (.keyAddition r)) := rfl

theorem advance_orchestrating_roundTransform :
    advance k (orchestrating k s b (.roundTransform r)) =
      orchestrating k s (rt b) (.keyAddition r) := rfl

theorem advance_orchestrating_finalTransform :
    advance k (orchestrating k s b .finalTransform) =
      orchestrating k s (ft b) (.keyAddition 10) := rfl

theorem advance_orchestrating_done :
    advance k (orchestrating k s b .done) = orchestrating k s b .idle := rfl

/-- R172: a middle round and its key addition. -/
theorem runPhases_round (n : Nat) (u : State)
    (h : runPhases k n u = orchestrating k s b (.roundTransform r)) :
    runPhases k (n + 2) u =
      orchestrating k s (ark (rt b) (roundKey (expand k) r)) (nextPhase (.keyAddition r)) := by
  simp only [runPhases, h, advance_orchestrating_roundTransform, advance_orchestrating_keyAddition]

end

/-- R172: the 24 phases of the orchestrator leave the result of R170's cipher in STATE and its schedule
in KS. -/
theorem orchestrate_eq (k : Block) (s : State) :
    orchestrate k s = orchestrating k s (cipher k s.state).1 .idle := by
  have r1 := runPhases_round k s _ 1 3 _ (runPhases_three k s)
  have r2 := runPhases_round k s _ 2 5 _ r1
  have r3 := runPhases_round k s _ 3 7 _ r2
  have r4 := runPhases_round k s _ 4 9 _ r3
  have r5 := runPhases_round k s _ 5 11 _ r4
  have r6 := runPhases_round k s _ 6 13 _ r5
  have r7 := runPhases_round k s _ 7 15 _ r6
  have r8 := runPhases_round k s _ 8 17 _ r7
  have r9 := runPhases_round k s _ 9 19 _ r8
  have last : nextPhase (.keyAddition 9) = .finalTransform := rfl
  have ends : nextPhase (.keyAddition 10) = .done := rfl
  rw [last] at r9
  simp only [orchestrate, runPhases] at r9 ⊢
  rw [r9, advance_orchestrating_finalTransform, advance_orchestrating_keyAddition, ends,
    advance_orchestrating_done]
  simp only [cipher, middleRounds, List.foldl_cons, List.foldl_nil]

/-- R22, R37, R201: a completed command that writes STATE. -/
theorem complete_writeState (b : Block) (s : State) :
    complete (writeState b s) = { s with
      state := b, stateW := #v[true, true, true, true]
      pending := none, busy := false, done := true } := rfl

/-- R201: every outcome of the execution of a command. -/
inductive CommandOutcome (s : State) : Instr → State → Prop where
  | sbox (x : Byte) : CommandOutcome s (.sbox x) (complete (writeResult (sbox x) s))
  | mul2 (x : Byte) : CommandOutcome s (.mul2 x) (complete (writeResult (xtime x) s))
  | mul3 (x : Byte) : CommandOutcome s (.mul3 x) (complete (writeResult (mul3 x) s))
  | expand (k : BitVec 4) : CommandOutcome s (.expand k)
      (complete (writeSchedule (expand (rootKey k s)) (expansion (rootKey k s)).rc s))
  | round : CommandOutcome s .round (complete (writeState (rt s.state) s))
  | final : CommandOutcome s .final (complete (writeState (ft s.state) s))
  | ark (r : BitVec 4) (named : r.toNat < 11) : CommandOutcome s (.ark r)
      (complete (writeState (ark s.state (roundKey s.ks ⟨r.toNat, named⟩)) s))
  | encrypt (k : BitVec 4) : CommandOutcome s (.encrypt k)
      (complete (orchestrating (rootKey k s) s (cipher (rootKey k s) s.state).1 .idle))

/-- R161: `ARK r` of a round key that RND names. -/
theorem exec_ark (r : BitVec 4) (s : State) (named : r.toNat < 11) :
    exec (.ark r) s =
      .next (complete (writeState (ark s.state (roundKey s.ks ⟨r.toNat, named⟩)) s)) :=
  dif_pos named

/-- R171: `ENCRYPT k` with its phases run. -/
theorem exec_encrypt (k : BitVec 4) (s : State) :
    exec (.encrypt k) s =
      .next (complete (orchestrating (rootKey k s) s (cipher (rootKey k s) s.state).1 .idle)) := by
  rw [← orchestrate_eq]
  rfl

/-- Everything the execution of a command can do, and that it does it. -/
theorem exec_eq_next_iff (i : Instr) (s t : State) :
    exec i s = .next t ↔ CommandOutcome s i t := by
  constructor
  · intro h
    cases i with
    | sbox x => cases h; exact .sbox x
    | mul2 x => cases h; exact .mul2 x
    | mul3 x => cases h; exact .mul3 x
    | expand k => cases h; exact .expand k
    | round => cases h; exact .round
    | final => cases h; exact .final
    | ark r =>
      by_cases named : r.toNat < 11
      · rw [exec_ark r s named] at h
        cases h
        exact .ark r named
      · rw [show exec (.ark r) s = .fault .noSuchRoundKey from dif_neg named] at h
        cases h
    | encrypt k =>
      rw [exec_encrypt] at h
      cases h
      exact .encrypt k
  · intro h
    cases h with
    | ark r named => exact exec_ark r s named
    | encrypt k => exact exec_encrypt k s
    | sbox | mul2 | mul3 | expand | round | final => rfl

/-- R75, R201: the meaning of a command that a word decodes to completes in every state. -/
theorem exec_of_decode {v : Word} {i : Instr} (hd : decode v = .ok i) (s : State) :
    ∃ t, exec i s = .next t := by
  cases i with
  | ark r => exact ⟨_, exec_ark r s (Nat.lt_succ_of_le (roundKeyNamed_of_decode hd))⟩
  | sbox | mul2 | mul3 | expand | round | final | encrypt => exact ⟨_, rfl⟩

variable {s t : State} {i : Instr}

/-- R201: the completion bits. -/
theorem CommandOutcome.completed (h : CommandOutcome s i t) :
    t.pending = none ∧ t.busy = false ∧ t.done = true := by
  cases h <;> simp

/-- R201, R202: what no command changes. -/
theorem CommandOutcome.frame (h : CommandOutcome s i t) :
    t.err = s.err ∧ t.errcode = s.errcode ∧ t.faults = s.faults
    ∧ t.key0 = s.key0 ∧ t.key1 = s.key1 ∧ t.agenda = s.agenda := by
  cases h <;> simp

/-- R36: a command leaves PHASE as it was or Idle. -/
theorem CommandOutcome.phase_idle (h : CommandOutcome s i t) (idle : s.phase = .idle) :
    t.phase = .idle := by
  cases h <;> simp [idle]

/-- R22: the commands that change STATE. -/
theorem CommandOutcome.writesState_of_ne (h : CommandOutcome s i t) (changed : t.state ≠ s.state) :
    i = .round ∨ i = .final ∨ (∃ r, i = .ark r) ∨ ∃ k, i = .encrypt k := by
  cases h with
  | sbox | mul2 | mul3 | expand => simp at changed
  | round | final | ark | encrypt => simp

/-- R24: the commands that change KS. -/
theorem CommandOutcome.writesSchedule_of_ne (h : CommandOutcome s i t) (changed : t.ks ≠ s.ks) :
    ∃ k, i = .expand k ∨ i = .encrypt k := by
  cases h with
  | expand k | encrypt k => exact ⟨k, by simp⟩
  | sbox | mul2 | mul3 | round | final | ark => simp at changed

/-- R28: the commands that change RESULT. -/
theorem CommandOutcome.writesResult_of_ne (h : CommandOutcome s i t)
    (changed : t.result ≠ s.result) : ∃ x, i = .sbox x ∨ i = .mul2 x ∨ i = .mul3 x := by
  cases h with
  | sbox x | mul2 x | mul3 x => exact ⟨x, by simp⟩
  | expand | round | final | ark | encrypt => simp at changed

/-- R120, R171: KS after a command that expands a root key. -/
theorem CommandOutcome.ks_of_expands {k : BitVec 4} (h : CommandOutcome s i t)
    (expands : i = .expand k ∨ i = .encrypt k) :
    t.ks = Machine.expand (rootKey k s) ∧ t.ksW = true := by
  rcases expands with rfl | rfl <;> cases h <;> exact ⟨rfl, rfl⟩

/-- R37: RES_W after a command that writes RESULT. -/
theorem CommandOutcome.resW_of_writesResult {x : Byte} (h : CommandOutcome s i t)
    (writes : i = .sbox x ∨ i = .mul2 x ∨ i = .mul3 x) : t.resW = true := by
  rcases writes with rfl | rfl | rfl <;> cases h <;> rfl

/-- R37: STATE_W after a command that writes STATE. -/
theorem CommandOutcome.stateW_of_writesState (h : CommandOutcome s i t)
    (writes : i = .round ∨ i = .final ∨ (∃ r, i = .ark r) ∨ ∃ k, i = .encrypt k) :
    t.stateW = #v[true, true, true, true] := by
  rcases writes with rfl | rfl | ⟨r, rfl⟩ | ⟨k, rfl⟩ <;> cases h <;> rfl

/-- R37: no command clears a mark. -/
theorem CommandOutcome.marks_kept (h : CommandOutcome s i t) :
    (∀ j : Fin 4, s.stateW[j] = true → t.stateW[j] = true)
    ∧ (s.ksW = true → t.ksW = true) ∧ (s.resW = true → t.resW = true) := by
  cases h <;> simp

/-- R122: round key 0 of a schedule is the root key. -/
theorem roundKey_expand_zero (k : Block) : roundKey (Machine.expand k) 0 = k := by
  ext j hj : 1
  have filled := getElem_expand k 0 (by omega) j (by omega)
  simpa using filled.trans (getElem_expandStart k j hj)

end Sys2Proof.Machine
end

section
/-! What a step can do, by the event that comes next (60_exceptions.md R200, R201, R230). -/

namespace Sys2Proof.Machine

variable {s t : State} {i : Instr}

/-- R200: the step of a state whose next event is an access of the host. -/
theorem eq_hostAccess_of_step {a : Access} (next : s.agenda.head? = some (.host a))
    (h : step s = .next t) : t = hostAccess a { s with agenda := s.agenda.tail } := by
  obtain ⟨rest, agenda⟩ := List.head?_eq_some_iff.1 next
  rw [step, agenda] at h
  cases h
  rw [agenda, List.tail_cons]

/-- R230: the step of a state whose next event is a reset. -/
theorem eq_resetCore_of_step (next : s.agenda.head? = some .reset) (h : step s = .next t) :
    t = resetCore { s with agenda := s.agenda.tail } := by
  obtain ⟨rest, agenda⟩ := List.head?_eq_some_iff.1 next
  rw [step, agenda] at h
  cases h
  rw [agenda, List.tail_cons]

/-- R201: the step of a state whose engine runs a command is that command's meaning. -/
theorem step_of_runs (runs : s.Runs i) : step s = exec i { s with agenda := s.agenda.tail } := by
  obtain ⟨turn, hdec⟩ := runs
  obtain ⟨v, hp, hd⟩ := Option.map_eq_some_iff.1 hdec
  have moves : step s = engineTurn { s with agenda := s.agenda.tail } := by
    unfold step
    rcases turn with empty | first
    · rw [empty]
      exact congrArg engineTurn (by rw [List.tail_nil, ← empty])
    · obtain ⟨rest, ha⟩ := List.head?_eq_some_iff.1 first
      rw [ha]
      rfl
  exact moves.trans (engineTurn_of_decode hp hd)

/-- R201: what the step does whose engine runs a command. -/
theorem commandOutcome_of_runs (h : step s = .next t) (runs : s.Runs i) :
    CommandOutcome { s with agenda := s.agenda.tail } i t :=
  (exec_eq_next_iff _ _ _).1 ((step_of_runs runs).symm.trans h)

/-- Everything a step that answers a next state can do, with the command it runs named. -/
inductive StepOutcome (s t : State) : Prop where
  /-- an access of the host -/
  | host (a : Access) (next : s.agenda.head? = some (.host a))
      (does : t = hostAccess a { s with agenda := s.agenda.tail })
  /-- the reset input -/
  | reset (next : s.agenda.head? = some .reset)
      (does : t = resetCore { s with agenda := s.agenda.tail })
  /-- the engine's turn with nothing pending -/
  | idle (turn : s.EngineNext) (empty : s.pending = none)
      (does : t = { s with agenda := s.agenda.tail })
  /-- the engine's turn on a command -/
  | command (i : Instr) (runs : s.Runs i)
      (does : CommandOutcome { s with agenda := s.agenda.tail } i t)

theorem step_outcome (h : step s = .next t) : StepOutcome s t := by
  obtain ⟨a, rest, ha, rfl⟩ | ⟨rest, ha, rfl⟩ | ⟨turn, ⟨empty, rfl⟩ | ⟨v, i, hp, hd, he⟩⟩ :=
    step_next_cases h
  · exact .host a (by rw [ha, List.head?_cons]) (by rw [ha, List.tail_cons])
  · exact .reset (by rw [ha, List.head?_cons]) (by rw [ha, List.tail_cons])
  · exact .idle turn empty rfl
  · exact .command i ⟨turn, by rw [hp, Option.map_some, hd]⟩ ((exec_eq_next_iff _ _ _).1 he)

end Sys2Proof.Machine
end

section
/-! What an access of the host can change: only CMD and STATE writes reach the core itself, and every
access reports at most one hardware error (20_memory.md R55 to R57, 60_exceptions.md R205, R207). -/

namespace Sys2Proof.Machine

/-- The core of `s` with the error latch, the fault record and the environment's own fields of `u`: what
an access of the host may change without touching the core's data or its command. -/
def State.withReports (s u : State) : State :=
  { s with
    err := u.err, errcode := u.errcode, faults := u.faults
    agenda := u.agenda, rdata := u.rdata, freeCount := u.freeCount }

@[simp] theorem withReports_state (s u : State) : (s.withReports u).state = s.state := rfl

@[simp] theorem withReports_ks (s u : State) : (s.withReports u).ks = s.ks := rfl

@[simp] theorem rootKey_withReports (k : BitVec 4) (s u : State) :
    rootKey k (s.withReports u) = rootKey k s := rfl

@[simp] theorem complete_withReports (s u : State) :
    complete (s.withReports u) = (complete s).withReports u := rfl

@[simp] theorem writeState_withReports (b : Block) (s u : State) :
    writeState b (s.withReports u) = (writeState b s).withReports u := rfl

@[simp] theorem orchestrating_withReports (k : Block) (s u : State) (b : Block) (p : Phase) :
    orchestrating k (s.withReports u) b p = (orchestrating k s b p).withReports u := rfl

/-- The two states differ in their reports at most. -/
def SameCore (s u : State) : Prop := u = s.withReports u

theorem SameCore.trans {s t u : State} (hst : SameCore s t) (htu : SameCore t u) : SameCore s u :=
  calc
    u = t.withReports u := htu
    _ = (s.withReports t).withReports u := congrArg (State.withReports · u) hst
    _ = s.withReports u := rfl

section
variable {s u : State} (h : SameCore s u)
include h

theorem SameCore.state_eq : u.state = s.state := (congrArg State.state h :)
theorem SameCore.busy_eq : u.busy = s.busy := (congrArg State.busy h :)
theorem SameCore.done_eq : u.done = s.done := (congrArg State.done h :)
theorem SameCore.pending_eq : u.pending = s.pending := (congrArg State.pending h :)

end

/-- R205, R207: what a step other than a reset does to the error latch and the fault record: it records
model faults only, or it records one hardware error and latches it if it is the first. -/
def Reported (s t : State) : Prop :=
  (∃ kinds : List ModelFault, t.err = s.err ∧ t.errcode = s.errcode
    ∧ t.faults = s.faults ++ kinds.map .modelFault)
  ∨ ∃ c : ErrCode, c ≠ .none ∧ t.err = true ∧ t.errcode = (if s.err then s.errcode else c)
    ∧ t.faults = s.faults ++ [.hardwareError c]

theorem reported_of_unchanged {s t : State} (err : t.err = s.err) (errcode : t.errcode = s.errcode)
    (faults : t.faults = s.faults) : Reported s t :=
  .inl ⟨[], err, errcode, by simp [faults]⟩

/-- R205, R207: every access reports at most one hardware error. -/
theorem AccessOutcome.reported {s t : State} (h : AccessOutcome s t) : Reported s t := by
  cases h with
  | outside | replied | column => exact reported_of_unchanged rfl rfl rfl
  | unwritten => exact .inl ⟨[.unwritten], rfl, rfl, rfl⟩
  | hazardRead | hazardWrite => exact .inl ⟨[.hazard], rfl, rfl, rfl⟩
  | badRead | badWrite => exact .inr ⟨.badAccess, by decide, rfl, rfl, rfl⟩
  | refusedBusy => exact .inr ⟨.cmdBusy, by decide, rfl, rfl, rfl⟩
  | refusedIllegal => exact .inr ⟨.illegalCmd, by decide, rfl, rfl, rfl⟩
  | accepted v i =>
    exact .inl ⟨(if readsState i && !stateWritten s then [.unwritten] else [])
      ++ (if readsKs i && !s.ksW then [.unwritten] else []), by simp, by simp, by
        simp [apply_ite (List.map FaultRecord.modelFault)]⟩

/-- R22 to R28, R36, R37: what no access of the host changes. -/
theorem AccessOutcome.frame {s t : State} (h : AccessOutcome s t) :
    t.ks = s.ks ∧ t.key0 = s.key0 ∧ t.key1 = s.key1 ∧ t.result = s.result
    ∧ t.phase = s.phase ∧ t.ksW = s.ksW ∧ t.resW = s.resW ∧ t.agenda = s.agenda := by
  cases h <;> simp

/-- R37: no access of the host clears a mark of STATE. -/
theorem AccessOutcome.stateW_kept {s t : State} (h : AccessOutcome s t) (j : Fin 4)
    (set : s.stateW[j] = true) : t.stateW[j] = true := by
  cases h with
  | column k v => simp_all [Vector.getElem_set]
  | _ => simpa using set

/-- R55, R57: a read changes reports only. -/
theorem hostRead_sameCore (off size : Nat) (s : State) : SameCore s (hostRead off size s) := by
  have data (mark : Bool) (v : Word) : SameCore s (readData mark v s) := by
    unfold readData
    split
    · rfl
    · cases mark <;> rfl
  unfold hostRead
  split
  · rename_i r _
    cases r with
    | cmd | status => rfl
    | result | state | ks => exact data _ _
  · rfl

/-- R50: the address of an offset of the window. -/
theorem eq_base_add_of_windowOffset {addr off : Nat} (h : windowOffset addr = some off) :
    addr = Config.base + off := by
  unfold windowOffset at h
  split at h
  · cases h; omega
  · cases h

/-- R51: the only offset of CMD. -/
theorem eq_of_regAt_cmd {off : Nat} (h : regAt off = some .cmd) : off = 0x000 := by
  unfold regAt at h
  split_ifs at h <;> simp_all

/-- R51: the only offset of STATEj. -/
theorem eq_of_regAt_state {off : Nat} {j : Fin 4} (h : regAt off = some (.state j)) :
    off = 0x010 + 4 * j.val := by
  unfold regAt at h
  split_ifs at h <;> simp_all
  subst h
  simp only
  omega

/-- R56, R57: a write is a CMD write, a STATE write, or changes reports only. -/
theorem hostWrite_cases (off size : Nat) (v : Word) (s : State) :
    (off = 0x000 ∧ size = 4 ∧ hostWrite off size v s = presentCommand v s)
    ∨ (∃ j : Fin 4, off = 0x010 + 4 * j.val ∧ size = 4 ∧ hostWrite off size v s = writeStateReg j v s)
    ∨ SameCore s (hostWrite off size v s) := by
  by_cases word : size = 4
  · unfold hostWrite
    rw [if_pos word]
    cases reg : regAt off with
    | none => exact .inr (.inr rfl)
    | some r =>
      cases r with
      | cmd => exact .inl ⟨eq_of_regAt_cmd reg, word, rfl⟩
      | state j => exact .inr (.inl ⟨j, eq_of_regAt_state reg, word, rfl⟩)
      | status | result | ks => exact .inr (.inr rfl)
  · unfold hostWrite
    rw [if_neg word]
    exact .inr (.inr rfl)

/-- Everything an access of the host can do to the core: it is a CMD write, a STATE write, or it
changes reports only. -/
theorem hostAccess_cases (a : Access) (s : State) :
    (∃ v, a = .write (Config.base + 0x000) 4 v ∧ hostAccess a s = presentCommand v s)
    ∨ (∃ (j : Fin 4) (v : Word), a = .write (Config.base + (0x010 + 4 * j.val)) 4 v
      ∧ hostAccess a s = writeStateReg j v s)
    ∨ SameCore s (hostAccess a s) := by
  cases a with
  | read addr size =>
    cases window : windowOffset addr with
    | none => exact .inr (.inr (by rw [hostAccess, window]; rfl))
    | some off =>
      refine .inr (.inr ?_)
      rw [hostAccess, window]
      exact hostRead_sameCore off size s
  | write addr size v =>
    cases window : windowOffset addr with
    | none => exact .inr (.inr (by rw [hostAccess, window]; rfl))
    | some off =>
      rw [eq_base_add_of_windowOffset window]
      have write : hostAccess (.write (Config.base + off) size v) s = hostWrite off size v s := by
        rw [← eq_base_add_of_windowOffset window, hostAccess, window]
      rw [write]
      rcases hostWrite_cases off size v s with ⟨rfl, rfl, does⟩ | ⟨j, rfl, rfl, does⟩ | same
      · exact .inl ⟨v, rfl, does⟩
      · exact .inr (.inl ⟨j, v, rfl, does⟩)
      · exact .inr (.inr same)

/-- R51, R56: a 32-bit write at the offset of STATEj. -/
theorem hostAccess_write_state (j : Fin 4) (v : Word) (s : State) :
    hostAccess (.write (Config.base + (0x010 + 4 * j.val)) 4 v) s = writeStateReg j v s := by
  rw [hostAccess_write _ _ _ _ (by omega), hostWrite, if_pos rfl, regAt_state]

/-- R51, R80: a 32-bit write at the offset of CMD. -/
theorem hostAccess_write_cmd (v : Word) (s : State) :
    hostAccess (.write (Config.base + 0x000) 4 v) s = presentCommand v s := by
  rw [hostAccess_write _ _ _ _ (by omega), hostWrite, if_pos rfl, regAt_cmd]

/-- R80: a CMD write is accepted, or it changes reports only. -/
theorem presentCommand_cases (v : Word) (s : State) :
    (s.busy = false ∧ legal v = true ∧ (presentCommand v s).pending = some v
      ∧ (presentCommand v s).busy = true ∧ (presentCommand v s).done = false
      ∧ (presentCommand v s).state = s.state)
    ∨ ((s.busy = true ∨ legal v = false) ∧ SameCore s (presentCommand v s)) := by
  unfold presentCommand
  cases busy : s.busy with
  | true => exact .inr ⟨.inl rfl, rfl⟩
  | false =>
    rw [if_neg Bool.false_ne_true]
    cases dec : decode v with
    | error e => exact .inr ⟨.inr (not_legal_of_decode dec), rfl⟩
    | ok i => exact .inl ⟨rfl, legal_of_decode dec, rfl, rfl, rfl, by simp⟩

/-- R56, R240: a STATE write writes the column while the core is not busy, or changes reports only. -/
theorem writeStateReg_cases (j : Fin 4) (v : Word) (s : State) :
    (s.busy = false ∧ writeStateReg j v s = writeColumn j v s)
    ∨ (s.busy = true ∧ SameCore s (writeStateReg j v s)) := by
  unfold writeStateReg
  cases busy : s.busy with
  | true => exact .inr ⟨rfl, rfl⟩
  | false => exact .inl ⟨rfl, rfl⟩

/-- R240, R80: while the core is busy every access changes reports only. -/
theorem hostAccess_sameCore_of_busy (a : Access) (s : State) (busy : s.busy = true) :
    SameCore s (hostAccess a s) := by
  rcases hostAccess_cases a s with ⟨v, rfl, does⟩ | ⟨j, v, rfl, does⟩ | same
  · rw [does, presentCommand, if_pos busy]
    rfl
  · rw [does, writeStateReg, if_pos busy]
    rfl
  · exact same

/-- R22, R56: an access that changes STATE is a STATE write while the core is not busy. -/
theorem hostAccess_state_of_ne (a : Access) (s : State)
    (changed : (hostAccess a s).state ≠ s.state) : ∃ (j : Fin 4) (v : Word), s.busy = false
      ∧ a = .write (Config.base + (0x010 + 4 * j.val)) 4 v := by
  rcases hostAccess_cases a s with ⟨v, rfl, does⟩ | ⟨j, v, rfl, does⟩ | same
  · rw [does] at changed
    rcases presentCommand_cases v s with ⟨-, -, -, -, -, kept⟩ | ⟨-, same⟩
    · exact absurd kept changed
    · exact absurd same.state_eq changed
  · rw [does] at changed
    rcases writeStateReg_cases j v s with ⟨idle, -⟩ | ⟨-, same⟩
    · exact ⟨j, v, idle, rfl⟩
    · exact absurd same.state_eq changed
  · exact absurd same.state_eq changed

/-- R32: an access that changes DONE is a CMD write that is accepted. -/
theorem hostAccess_done_of_ne (a : Access) (s : State)
    (changed : (hostAccess a s).done ≠ s.done) : ∃ v, a = .write (Config.base + 0x000) 4 v
      ∧ s.busy = false ∧ legal v = true := by
  rcases hostAccess_cases a s with ⟨v, rfl, does⟩ | ⟨j, v, rfl, does⟩ | same
  · rw [does] at changed
    rcases presentCommand_cases v s with ⟨idle, isLegal, -⟩ | ⟨-, same⟩
    · exact ⟨v, rfl, idle, isLegal⟩
    · exact absurd same.done_eq changed
  · rw [does] at changed
    rcases writeStateReg_cases j v s with ⟨-, writes⟩ | ⟨-, same⟩
    · rw [writes] at changed
      exact absurd rfl changed
    · exact absurd same.done_eq changed
  · exact absurd same.done_eq changed

end Sys2Proof.Machine
end

section
/-! The invariant of every run, and the runs through an agenda (10_state.md R31 to R36, 60_exceptions.md
R201, R205). -/

namespace Sys2Proof.Machine

variable {s t : State}

/-- R33, R205: every step that is not a reset reports at most one hardware error. -/
theorem step_reported (noReset : s.NoReset) (h : step s = .next t) : Reported s t := by
  cases step_outcome h with
  | host a next does =>
    rw [does]
    exact (hostAccess_outcome a _).reported
  | reset next does => exact absurd next noReset
  | idle turn empty does =>
    rw [does]
    exact reported_of_unchanged rfl rfl rfl
  | command i runs does =>
    obtain ⟨err, errcode, faults, -⟩ := does.frame
    exact reported_of_unchanged err errcode faults

/-- R31, R32, R35, R36, R80: the part of the invariant about the command. -/
def CommandInv (s : State) : Prop :=
  s.busy = s.pending.isSome ∧ (s.busy = true → s.done = false) ∧ s.pending.all legal = true
  ∧ s.phase = .idle

/-- R33, R205: the part of the invariant about the error latch. -/
def LatchInv (s : State) : Prop :=
  (s.err = false ↔ s.errcode = .none)
  ∧ (s.err = true → FaultRecord.hardwareError s.errcode ∈ s.faults)

theorem inv_iff (s : State) : s.Inv ↔ CommandInv s ∧ LatchInv s := by
  simp [State.Inv, CommandInv, LatchInv, and_assoc]

/-- R33, R205: what a step may report keeps the error latch and the fault record in agreement. -/
theorem Reported.keeps_latch (h : Reported s t) (inv : LatchInv s) : LatchInv t := by
  obtain ⟨agree, recorded⟩ := inv
  rcases h with ⟨kinds, err, errcode, faults⟩ | ⟨c, isError, err, errcode, faults⟩
  · rw [LatchInv, err, errcode, faults]
    exact ⟨agree, fun latched => List.mem_append_left _ (recorded latched)⟩
  · rw [LatchInv, err, errcode, faults]
    cases latched : s.err with
    | true => exact ⟨by simp [← agree, latched], fun _ => by simp [recorded latched]⟩
    | false => exact ⟨by simp [isError], fun _ => by simp⟩

/-- The part of the invariant about the command does not read the reports. -/
theorem SameCore.keeps_command (h : SameCore s t) (inv : CommandInv s) : CommandInv t := by
  rw [show t = s.withReports t from h]
  exact inv

/-- R80: a CMD write keeps the part of the invariant about the command. -/
theorem presentCommand_keeps_command (v : Word) (inv : CommandInv s) :
    CommandInv (presentCommand v s) := by
  rcases presentCommand_cases v s with ⟨-, isLegal, pending, busy, done, -⟩ | ⟨-, same⟩
  · obtain ⟨-, -, -, phase⟩ := inv
    have kept := (presentCommand_outcome v s).frame
    simp [CommandInv, pending, busy, done, isLegal, kept, phase]
  · exact same.keeps_command inv

/-- R56: a STATE write keeps the part of the invariant about the command. -/
theorem writeStateReg_keeps_command (j : Fin 4) (v : Word) (inv : CommandInv s) :
    CommandInv (writeStateReg j v s) := by
  rcases writeStateReg_cases j v s with ⟨-, writes⟩ | ⟨-, same⟩
  · rw [writes]
    exact inv
  · exact same.keeps_command inv

theorem hostAccess_keeps_command (a : Access) (inv : CommandInv s) :
    CommandInv (hostAccess a s) := by
  rcases hostAccess_cases a s with ⟨v, -, does⟩ | ⟨j, v, -, does⟩ | same
  · rw [does]
    exact presentCommand_keeps_command v inv
  · rw [does]
    exact writeStateReg_keeps_command j v inv
  · exact same.keeps_command inv

/-- R31, R32, R35: a completed command leaves nothing pending. -/
theorem CommandOutcome.keeps_command {i : Instr} (h : CommandOutcome s i t) (inv : CommandInv s) :
    CommandInv t := by
  obtain ⟨-, -, -, phase⟩ := inv
  obtain ⟨pending, busy, -⟩ := h.completed
  exact ⟨by rw [pending, busy]; rfl, by simp [busy], by rw [pending]; rfl, h.phase_idle phase⟩

/-- Settles O55: its fields are those of `State.reset`. -/
theorem resetHasTheInvariant : Obligations.ResetHasTheInvariant := by
  unfold Obligations.ResetHasTheInvariant
  simp [State.Inv, State.reset]

/-- R230: a reset makes the invariant hold, whatever the state. -/
theorem resetCore_inv (s : State) : (resetCore s).Inv := by
  simp [State.Inv, State.reset]

/-- Settles O54: a reset makes the invariant hold; any other step keeps the latch's part by what it may
report, and the command's part by what an access or a command does. -/
theorem everyStepKeepsTheInvariant : Obligations.EveryStepKeepsTheInvariant := by
  intro s t inv h
  obtain ⟨command, latch⟩ := (inv_iff s).1 inv
  by_cases next : s.agenda.head? = some .reset
  · rw [eq_resetCore_of_step next h]
    exact resetCore_inv _
  · refine (inv_iff t).2 ⟨?_, (step_reported next h).keeps_latch latch⟩
    cases step_outcome h with
    | host a _ does =>
      rw [does]
      exact hostAccess_keeps_command a command
    | reset isReset does => exact absurd isReset next
    | idle turn empty does =>
      rw [does]
      exact command
    | command i runs does => exact does.keeps_command command

/-- R200: a step takes the first event of the agenda. -/
theorem step_agenda (h : step s = .next t) : t.agenda = s.agenda.tail := by
  cases step_outcome h with
  | host a next does =>
    rw [does]
    obtain ⟨-, -, -, -, -, -, -, agenda⟩ := (hostAccess_outcome a _).frame
    exact agenda
  | reset next does => rw [does]; rfl
  | idle turn empty does => rw [does]
  | command i runs does =>
    obtain ⟨-, -, -, -, -, agenda⟩ := does.frame
    exact agenda

/-- R80, R201: the engine's turn answers a next state when PENDING is empty or legal. -/
theorem engineTurn_of_legal (s : State) (pendingLegal : s.pending.all legal = true) :
    ∃ t, engineTurn s = .next t := by
  cases pending : s.pending with
  | none => exact ⟨s, by rw [engineTurn, pending]⟩
  | some v =>
    rw [pending, Option.all_some] at pendingLegal
    obtain ⟨i, hd⟩ := (decode_ok_iff_legal v).2 pendingLegal
    rw [engineTurn_of_decode pending hd]
    exact exec_of_decode hd s

/-- R203: a state with the invariant steps. -/
theorem exists_step_of_inv (inv : s.Inv) : ∃ t, step s = .next t := by
  obtain ⟨-, -, pendingLegal, -⟩ := inv
  unfold step
  split
  · exact engineTurn_of_legal _ pendingLegal
  · exact engineTurn_of_legal _ pendingLegal
  · exact ⟨_, rfl⟩
  · exact ⟨_, rfl⟩

/-- R201: a step on an empty agenda is the engine's, and leaves nothing pending. -/
theorem idle_of_step_of_agenda_nil (inv : s.Inv) (empty : s.agenda = []) (h : step s = .next t) :
    t.pending = none ∧ t.busy = false := by
  cases step_outcome h with
  | host a next does => simp [empty] at next
  | reset next does => simp [empty] at next
  | idle turn nothing does =>
    obtain ⟨busy, -⟩ := inv
    rw [does]
    exact ⟨nothing, by rw [busy, nothing]; rfl⟩
  | command i runs does =>
    obtain ⟨pending, busy, -⟩ := does.completed
    exact ⟨pending, busy⟩

/-- Settles O57, by induction on the agenda. -/
theorem everyRunThroughTheAgendaEndsIdle : Obligations.EveryRunThroughTheAgendaEndsIdle := by
  intro s inv
  generalize agenda : s.agenda = events
  induction events generalizing s with
  | nil =>
    obtain ⟨t, h⟩ := exists_step_of_inv inv
    refine ⟨t, by simp [stepMany, h], ?_, idle_of_step_of_agenda_nil inv agenda h⟩
    rw [step_agenda h, agenda, List.tail_nil]
  | cons event events ih =>
    obtain ⟨t, h⟩ := exists_step_of_inv inv
    obtain ⟨u, run, ends⟩ := ih t (everyStepKeepsTheInvariant s t inv h)
      (by rw [step_agenda h, agenda, List.tail_cons])
    exact ⟨u, by rw [List.length_cons, stepMany, h]; exact run, ends⟩

/-- R240, R80: the meaning of a command does not read or change the reports. -/
theorem CommandOutcome.withReports {i : Instr} (h : CommandOutcome s i t) (u : State) :
    CommandOutcome (s.withReports u) i (t.withReports u) := by
  cases h with
  | sbox x => exact .sbox x
  | mul2 x => exact .mul2 x
  | mul3 x => exact .mul3 x
  | expand k => exact .expand k
  | round => simpa using CommandOutcome.round (s := s.withReports u)
  | final => simpa using CommandOutcome.final (s := s.withReports u)
  | ark r named => simpa using CommandOutcome.ark (s := s.withReports u) r named
  | encrypt k => simpa using CommandOutcome.encrypt (s := s.withReports u) k

/-- R60, R240: host accesses alone, while the core is busy, change reports only. -/
theorem stepMany_hosts_of_busy (accesses : List Access) (later : List Event) (s : State)
    (busy : s.busy = true) (agenda : s.agenda = accesses.map Event.host ++ later) :
    ∃ u, stepMany accesses.length s = .next u ∧ u.agenda = later ∧ SameCore s u := by
  induction accesses generalizing s with
  | nil => exact ⟨s, rfl, agenda, rfl⟩
  | cons a accesses ih =>
    obtain ⟨t, h, same⟩ : ∃ t, step s = .next t ∧ SameCore s t :=
      ⟨hostAccess a { s with agenda := accesses.map Event.host ++ later },
        by rw [step, agenda]; rfl, hostAccess_sameCore_of_busy a _ busy⟩
    obtain ⟨u, run, left, sameRun⟩ := ih t (same.busy_eq.trans busy)
      (by rw [step_agenda h, agenda]; rfl)
    exact ⟨u, by rw [List.length_cons, stepMany, h]; exact run, left, same.trans sameRun⟩

/-- Settles O59: the accesses change reports only, which the command neither reads nor changes. -/
theorem pendingCommandTakesEffect : Obligations.PendingCommandTakesEffect := by
  intro s v i accesses rest busy pending dec agenda
  obtain ⟨later, split, turn, tail⟩ : ∃ later, s.agenda = accesses.map Event.host ++ later
      ∧ (later = [] ∨ later.head? = some .engine) ∧ later.tail = rest := by
    rcases agenda with engine | ⟨empty, rfl⟩
    · exact ⟨_, engine, .inr rfl, rfl⟩
    · exact ⟨[], by rw [List.append_nil, empty], .inl rfl, rfl⟩
  obtain ⟨u, run, left, same⟩ := stepMany_hosts_of_busy accesses later s busy split
  obtain ⟨w, meaning⟩ := exec_of_decode dec s
  have outcome := (exec_eq_next_iff i s w).1 meaning
  have pendingU : u.pending = some v := same.pending_eq.trans pending
  have runs : u.Runs i := ⟨by rw [State.EngineNext, left]; exact turn, by simp [pendingU, dec]⟩
  have atTurn : { u with agenda := u.agenda.tail } = s.withReports { u with agenda := rest } := by
    rw [left, tail]
    exact congrArg (fun x : State => { x with agenda := rest }) same
  have does : step u = .next (w.withReports { u with agenda := rest }) := by
    rw [step_of_runs runs, atTurn, exec_eq_next_iff]
    exact outcome.withReports _
  obtain ⟨pendingW, busyW, doneW⟩ := outcome.completed
  exact ⟨w, u, _, meaning, run, pendingU, same.busy_eq.trans busy, does, doneW, busyW,
    pendingW, rfl⟩

end Sys2Proof.Machine
end

section
/-! What writes each register, what sets the marks, and the DONE bit (10_state.md R22 to R38). -/

namespace Sys2Proof.Machine

variable {s t : State}

/-- Settles O46: each clause is read off what the step may report. -/
theorem errorLatchKeepsTheFirstError : Obligations.ErrorLatchKeepsTheFirstError := by
  intro s t noReset h
  rcases step_reported noReset h with
    ⟨kinds, err, errcode, faults⟩ | ⟨c, isError, err, errcode, faults⟩
  · have noError (c : ErrCode) : t.faults ≠ s.faults ++ [.hardwareError c] := by
      rw [faults, ne_eq, List.append_cancel_left_eq]
      intro single
      have mem : FaultRecord.hardwareError c ∈ kinds.map .modelFault := by simp [single]
      simp at mem
    refine ⟨fun latched => ⟨err.trans latched, errcode⟩, fun clear latched => ?_,
      fun c recorded => absurd recorded (noError c), fun _ => errcode⟩
    simp [err, clear] at latched
  · refine ⟨fun latched => ⟨err, by simp [errcode, latched]⟩, fun clear _ => ?_,
      fun d recorded => ⟨err, fun clear => ?_⟩, fun clear => ?_⟩
    · simp [errcode, clear, isError, faults]
    · simpa [errcode, clear, faults] using recorded
    · simp [err] at clear

/-- R38: what a step may report is appended to the fault record. -/
theorem Reported.faults_extended (h : Reported s t) : s.faults <+: t.faults := by
  rcases h with ⟨kinds, -, -, faults⟩ | ⟨c, -, -, -, faults⟩ <;>
    exact faults ▸ List.prefix_append _ _

/-- Settles O47: a reset keeps the record, and any other step appends to it. -/
theorem faultRecordOnlyGrows : Obligations.FaultRecordOnlyGrows := by
  intro s t h
  by_cases next : s.agenda.head? = some .reset
  · rw [eq_resetCore_of_step next h]
    exact List.prefix_refl _
  · exact (step_reported next h).faults_extended

/-- Settles O48, by what an access and a command may change. -/
theorem onlyTheseStepsWriteState : Obligations.OnlyTheseStepsWriteState := by
  intro s t h changed
  cases step_outcome h with
  | host a next does =>
    rw [does] at changed
    obtain ⟨j, v, idle, rfl⟩ := hostAccess_state_of_ne a _ changed
    exact .inl ⟨j, v, idle, next⟩
  | reset next does => exact .inr (.inr next)
  | idle turn empty does => exact absurd (congrArg State.state does) changed
  | command i runs does => exact .inr (.inl ⟨i, runs, does.writesState_of_ne changed⟩)

/-- Settles O49, by what an access and a command may change, and by the root key's place in its
schedule. -/
theorem onlyTheseStepsWriteSchedule : Obligations.OnlyTheseStepsWriteSchedule := by
  intro s t h
  refine ⟨fun changed => ?_, fun k runs => ?_⟩
  · cases step_outcome h with
    | host a next does =>
      rw [does] at changed
      obtain ⟨kept, -⟩ := (hostAccess_outcome a { s with agenda := s.agenda.tail }).frame
      exact absurd kept changed
    | reset next does => exact .inr next
    | idle turn empty does => exact absurd (congrArg State.ks does) changed
    | command i runs does =>
      obtain ⟨k, rfl | rfl⟩ := does.writesSchedule_of_ne changed
      · exact .inl ⟨k, .inl runs⟩
      · exact .inl ⟨k, .inr runs⟩
  · have ks : t.ks = expand (rootKey k s) := by
      rcases runs with runs | runs
      · exact ((commandOutcome_of_runs h runs).ks_of_expands (.inl rfl)).1
      · exact ((commandOutcome_of_runs h runs).ks_of_expands (.inr rfl)).1
    exact ⟨ks, by rw [ks, roundKey_expand_zero]⟩

/-- Settles O50, by what an access and a command may change. -/
theorem onlyTheseStepsWriteResult : Obligations.OnlyTheseStepsWriteResult := by
  intro s t h changed
  cases step_outcome h with
  | host a next does =>
    rw [does] at changed
    obtain ⟨-, -, -, kept, -⟩ := (hostAccess_outcome a { s with agenda := s.agenda.tail }).frame
    exact absurd kept changed
  | reset next does => exact .inr next
  | idle turn empty does => exact absurd (congrArg State.result does) changed
  | command i runs does =>
    obtain ⟨x, rfl | rfl | rfl⟩ := does.writesResult_of_ne changed
    · exact .inl ⟨x, .inl runs⟩
    · exact .inl ⟨x, .inr (.inl runs)⟩
    · exact .inl ⟨x, .inr (.inr runs)⟩

/-- Settles O51, by the frame of an access and of a command. -/
theorem rootKeysNeverChange : Obligations.RootKeysNeverChange := by
  intro s t h
  cases step_outcome h with
  | host a next does =>
    rw [does]
    obtain ⟨-, key0, key1, -⟩ := (hostAccess_outcome a { s with agenda := s.agenda.tail }).frame
    exact ⟨key0, key1⟩
  | reset next does => rw [does]; exact ⟨rfl, rfl⟩
  | idle turn empty does => rw [does]; exact ⟨rfl, rfl⟩
  | command i runs does =>
    obtain ⟨-, -, -, key0, key1, -⟩ := does.frame
    exact ⟨key0, key1⟩

/-- R37: a step that is not a reset clears no mark. -/
theorem step_marks_kept (noReset : s.NoReset) (h : step s = .next t) :
    (∀ j : Fin 4, s.stateW[j] = true → t.stateW[j] = true)
    ∧ (s.ksW = true → t.ksW = true) ∧ (s.resW = true → t.resW = true) := by
  cases step_outcome h with
  | host a next does =>
    have outcome := hostAccess_outcome a { s with agenda := s.agenda.tail }
    obtain ⟨-, -, -, -, -, ksW, resW, -⟩ := outcome.frame
    rw [does]
    exact ⟨outcome.stateW_kept, ksW.trans, resW.trans⟩
  | reset next does => exact absurd next noReset
  | idle turn empty does => rw [does]; exact ⟨fun _ => id, id, id⟩
  | command i runs does => exact does.marks_kept

/-- Settles O52, clause by clause, by what the step named there does. -/
theorem writtenMarks : Obligations.WrittenMarks := by
  intro s t h
  refine ⟨fun noReset => step_marks_kept noReset h, fun next => ?_, fun j v idle next => ?_,
    fun k runs => ?_, fun x runs => ?_, fun i runs writes => ?_⟩
  · rw [eq_resetCore_of_step next h]
    exact ⟨rfl, rfl, rfl⟩
  · rw [eq_hostAccess_of_step next h, hostAccess_write_state, writeStateReg,
      if_neg (by simp [idle])]
    simp
  · rcases runs with runs | runs
    · exact ((commandOutcome_of_runs h runs).ks_of_expands (.inl rfl)).2
    · exact ((commandOutcome_of_runs h runs).ks_of_expands (.inr rfl)).2
  · rcases runs with runs | runs | runs
    · exact (commandOutcome_of_runs h runs).resW_of_writesResult (.inl rfl)
    · exact (commandOutcome_of_runs h runs).resW_of_writesResult (.inr (.inl rfl))
    · exact (commandOutcome_of_runs h runs).resW_of_writesResult (.inr (.inr rfl))
  · exact (commandOutcome_of_runs h runs).stateW_of_writesState writes

/-- Settles O53, clause by clause, by what the step named there does. -/
theorem doneBit : Obligations.DoneBit := by
  intro s t noReset h
  refine ⟨fun i runs => ?_, fun v next => ?_, fun changed => ?_⟩
  · obtain ⟨-, -, done⟩ := (commandOutcome_of_runs h runs).completed
    exact done
  · rw [eq_hostAccess_of_step next h, hostAccess_write_cmd]
    rcases presentCommand_cases v { s with agenda := s.agenda.tail } with
      ⟨idle, isLegal, -, -, done, -⟩ | ⟨refused, same⟩
    · exact ⟨fun _ => done, fun refused => by simp_all⟩
    · exact ⟨fun accepted => by simp_all, fun _ => same.done_eq⟩
  · cases step_outcome h with
    | host a next does =>
      rw [does] at changed
      obtain ⟨v, rfl, idle, isLegal⟩ := hostAccess_done_of_ne a _ changed
      exact .inr ⟨v, next, idle, isLegal⟩
    | reset next does => exact absurd next noReset
    | idle turn empty does => exact absurd (congrArg State.done does) changed
    | command i runs does => exact .inl ⟨i, runs⟩

end Sys2Proof.Machine
end

section
/-! What a read returns, what reset leaves, and ARK (20_memory.md R52, R55, 70_reset_and_hazards.md R230,
42_round.md R161). -/

namespace Sys2Proof.Machine

/-- R55: a step on a 32-bit read at the offset of a register. -/
theorem step_read {off : Nat} {r : Reg} (s : State) (rest : List Event) (window : off < 0x100)
    (reg : regAt off = some r) :
    step { s with agenda := .host (.read (Config.base + off) 4) :: rest }
      = .next (readReg r { s with agenda := rest }) := by
  rw [step_host, hostAccess_read _ _ _ window, hostRead, if_pos rfl, reg]

/-- R55: a read of a data register while the core is not busy. -/
theorem readData_idle (mark : Bool) (v : Word) (s : State) (idle : s.busy = false) :
    readData mark v s = { s with
      rdata := some v
      faults := s.faults ++ if mark then [] else [.modelFault .unwritten] } := by
  rw [readData, if_neg (by simp [idle])]
  cases mark with
  | true => simp [raiseUnwrittenIf, reply]
  | false => rfl

/-- R52: byte m of the register STATEj. -/
theorem byteOf_stateReg (s : State) (j m : Fin 4) :
    byteOf (stateReg s j) m.val = s.state[4 * j.val + m.val] := by
  rw [stateReg, byteOf_packWord]
  fin_cases m <;> rfl

/-- R52: byte m of the register KSn. -/
theorem byteOf_ksReg (s : State) (n : Fin 44) (m : Fin 4) :
    byteOf (ksReg s n) m.val = s.ks[4 * n.val + m.val] := by
  rw [ksReg, byteOf_packWord]
  fin_cases m <;> rfl

/-- R30, R34, R204: the fields of the STATUS word. -/
theorem statusWord_fields (s : State) :
    (statusWord s).getLsbD 0 = s.busy ∧ (statusWord s).getLsbD 1 = s.done
    ∧ (statusWord s).getLsbD 2 = s.err ∧ (statusWord s).getLsbD 3 = false
    ∧ (statusWord s).extractLsb' 4 4 = errBits s.errcode
    ∧ (statusWord s).extractLsb' 8 8 = 0#8 ∧ (statusWord s).extractLsb' 16 16 = 0#16 := by
  unfold statusWord
  generalize s.busy = busy, s.done = done, s.err = err, s.errcode = code
  cases code <;> revert busy done err <;> decide

/-- R41: STATUS reads zero after reset. -/
theorem statusWord_reset : statusWord State.reset = 0 := by decide

/-- R230, R41: the STATUS word after the reset input is the one of the start of a run. -/
theorem statusWord_resetCore (s : State) : statusWord (resetCore s) = statusWord State.reset := rfl

/-- Settles O24, by the bytes of AddRoundKey. -/
theorem arkCompletes : Obligations.ArkCompletes := by
  intro r s named
  refine ⟨ark s.state (roundKey s.ks ⟨r.toNat, by omega⟩), ?_, fun j => ?_⟩
  · rw [exec_ark r s (by omega), complete_writeState]
  · rw [getElem_ark, getElem_roundKey]

/-- Settles O35, by the read of each register. -/
theorem controlReads : Obligations.ControlReads := by
  intro s rest
  exact ⟨step_read s rest (by decide) regAt_cmd, step_read s rest (by decide) regAt_status⟩

/-- Settles O36, by the read of each register and the bytes packed in it. -/
theorem dataReads : Obligations.DataReads := by
  intro s rest mark
  refine ⟨fun j => ⟨stateReg s j, ?_, byteOf_stateReg s j⟩,
    fun n => ⟨ksReg s n, ?_, byteOf_ksReg s n⟩, s.result.setWidth 32, ?_,
    BitVec.toNat_setWidth_of_le (by decide)⟩
  · exact (step_read { s with busy := false } rest (by omega) (regAt_state j)).trans
      (congrArg _ (readData_idle _ _ _ rfl))
  · exact (step_read { s with busy := false } rest (by omega) (regAt_ks n)).trans
      (congrArg _ (readData_idle _ _ _ rfl))
  · exact (step_read { s with busy := false } rest (by omega) regAt_result).trans
      (congrArg _ (readData_idle _ _ _ rfl))

/-- Settles O34, by the fields of the STATUS word. -/
theorem statusRegister : Obligations.StatusRegister := by
  refine ⟨fun s => ?_, statusWord_reset, fun v s => rfl⟩
  obtain ⟨busy, done, err, reserved, code, ret, high⟩ := statusWord_fields s
  refine ⟨busy, done, err, reserved, ?_, ?_, ?_, ?_, ret, high⟩ <;>
    intro errcode <;> rw [code, errcode] <;> rfl

/-- Settles O45: each value is a field of `resetCore` or `State.reset`. -/
theorem resetValues : Obligations.ResetValues := by
  refine ⟨fun s rest => ⟨resetCore { s with agenda := rest }, rfl, ?_⟩, ?_⟩
  · exact ⟨rfl, rfl, rfl, rfl, rfl, rfl, rfl, rfl, rfl,
      (statusWord_resetCore _).trans statusWord_reset, rfl, rfl, rfl, rfl⟩
  · and_intros <;> rfl

end Sys2Proof.Machine
end

section
/-! The register window: hazards while the core is busy, STATE writes, bad accesses, and what a read
leaves unchanged (20_memory.md R52 to R59, 70_reset_and_hazards.md R240). -/

namespace Sys2Proof.Machine

/-- R56: a step on a 32-bit write at the offset of STATEj. -/
theorem step_write_state (s : State) (rest : List Event) (j : Fin 4) (v : Word) :
    step { s with agenda := .host (.write (Config.base + (0x010 + 4 * j.val)) 4 v) :: rest }
      = .next (writeStateReg j v { s with agenda := rest }) := by
  rw [step_host, hostAccess_write_state]

/-- R52, R56: STATEj holds the word just written to it. -/
theorem stateReg_writeColumn (j : Fin 4) (v : Word) (s : State) :
    stateReg (writeColumn j v s) j = v := by
  have column (m : Nat) (hm : m < 4) : (writeColumn j v s).state[4 * j.val + m] = byteOf v m := by
    rw [getElem_writeColumn_state, if_pos (by omega), show (4 * j.val + m) % 4 = m by omega]
  have first : (writeColumn j v s).state[4 * j.val] = byteOf v 0 := column 0 (by omega)
  rw [stateReg, first, column 1 (by omega), column 2 (by omega), column 3 (by omega),
    packWord_byteOf]

/-- R240, R208: a read of RESULT, STATE or KS while the core is busy. -/
theorem readReg_busy {r : Reg} {s : State} (busy : s.busy = true) (notCmd : r ≠ .cmd)
    (notStatus : r ≠ .status) : readReg r s = hazardReply s := by
  cases r with
  | cmd => exact absurd rfl notCmd
  | status => exact absurd rfl notStatus
  | result | state | ks => exact if_pos busy

/-- R55: a read of STATEj while the core is not busy and its mark is set. -/
theorem readReg_state_written (j : Fin 4) (s : State) (idle : s.busy = false)
    (mark : s.stateW[j] = true) : readReg (.state j) s = reply (stateReg s j) s := by
  rw [readReg, readData, if_neg (by simp [idle]), mark]
  rfl

/-- R57: a read that is not of a word, or not at the offset of a register. -/
theorem hostRead_bad {off size : Nat} (s : State) (bad : size = 4 → regAt off = none) :
    hostRead off size s = reply 0 (raiseError .badAccess s) := by
  unfold hostRead
  by_cases word : size = 4
  · rw [if_pos word, bad word]
  · rw [if_neg word]

/-- R57: a write that is not of a word, or not at the offset of CMD or of a STATE register. -/
theorem hostWrite_bad {off size : Nat} (v : Word) (s : State)
    (notCmd : size = 4 → regAt off ≠ some .cmd)
    (notState : size = 4 → ∀ j : Fin 4, regAt off ≠ some (.state j)) :
    hostWrite off size v s = raiseError .badAccess s := by
  unfold hostWrite
  by_cases word : size = 4
  · rw [if_pos word]
    cases reg : regAt off with
    | none => rfl
    | some r =>
      cases r with
      | cmd => exact absurd reg (notCmd word)
      | state j => exact absurd reg (notState word j)
      | status | result | ks => rfl
  · rw [if_neg word]

/-- R55, R57: a read at any address changes reports only. -/
theorem hostAccess_read_sameCore (addr size : Nat) (s : State) :
    SameCore s (hostAccess (.read addr size) s) := by
  simp only [hostAccess]
  split
  · exact hostRead_sameCore _ size s
  · rfl

/-- R22 to R37: every item of the core that reports leave as it was. -/
theorem SameCore.frame {s u : State} (h : SameCore s u) :
    u.state = s.state ∧ u.ks = s.ks ∧ u.rcon = s.rcon ∧ u.result = s.result ∧ u.busy = s.busy
    ∧ u.done = s.done ∧ u.pending = s.pending ∧ u.phase = s.phase ∧ u.stateW = s.stateW
    ∧ u.ksW = s.ksW ∧ u.resW = s.resW ∧ u.key0 = s.key0 ∧ u.key1 = s.key1 := by
  rw [h]
  and_intros <;> rfl

/-- R59: a read of a register does not move the error latch, whether the core is busy or not. -/
theorem readReg_latch (r : Reg) (s : State) :
    (readReg r s).err = s.err ∧ (readReg r s).errcode = s.errcode := by
  have data (mark : Bool) (v : Word) :
      (readData mark v s).err = s.err ∧ (readData mark v s).errcode = s.errcode := by
    unfold readData
    split <;> simp
  cases r with
  | cmd | status => exact ⟨rfl, rfl⟩
  | result | state | ks => exact data _ _

/-- R52, R55: the word a read of a register returns, hazard reads apart. -/
def Reg.content (s : State) : Reg → Word
  | .cmd => 0
  | .status => statusWord s
  | .result => s.result.setWidth 32
  | .state j => stateReg s j
  | .ks n => ksReg s n

/-- R55: a read that is no hazard returns the register's content and changes the fault record only. -/
theorem readReg_content (r : Reg) (s : State) (noHazard : s.busy = true → r = .cmd ∨ r = .status) :
    ∃ faults, readReg r s = { s with rdata := some (r.content s), faults := faults } := by
  cases r with
  | cmd | status => exact ⟨s.faults, rfl⟩
  | result | state | ks =>
    have idle : s.busy = false := Bool.eq_false_iff.2 fun busy => by simpa using noHazard busy
    exact ⟨_, readData_idle _ _ s idle⟩

/-- R59: the content of a register does not depend on what a read changes. -/
theorem content_after_read (r : Reg) (s : State) (agenda : List Event) (rdata : Option Word)
    (faults : List FaultRecord) :
    r.content { s with agenda := agenda, rdata := rdata, faults := faults } = r.content s := by
  cases r <;> rfl

/-- Settles O37, by the read of each data register and the STATE write while busy. -/
theorem busyDataAccessIsHazard : Obligations.BusyDataAccessIsHazard := by
  intro s rest off data
  constructor
  · obtain ⟨r, window, reg, notCmd, notStatus⟩ :
        ∃ r, off < 0x100 ∧ regAt off = some r ∧ r ≠ .cmd ∧ r ≠ .status := by
      rcases data with rfl | ⟨j, rfl⟩ | ⟨n, rfl⟩
      · exact ⟨.result, by omega, regAt_result, nofun, nofun⟩
      · exact ⟨.state j, by omega, regAt_state j, nofun, nofun⟩
      · exact ⟨.ks n, by omega, regAt_ks n, nofun, nofun⟩
    exact ⟨Config.hazardRead s.freeCount, (step_read { s with busy := true } rest window reg).trans
      (congrArg _ (readReg_busy rfl notCmd notStatus))⟩
  · rintro v j rfl
    exact step_write_state { s with busy := true } rest j v

/-- Settles O38, by the column and the mark a STATE write leaves. -/
theorem stateWrites : Obligations.StateWrites := by
  intro s rest j v
  refine ⟨(writeColumn j v s).state, s.stateW.set j.val true,
    step_write_state { s with busy := false } rest j v, fun m => ?_, fun k other => ?_, ?_,
    fun i other => ?_⟩
  · rw [getElem_writeColumn_state, if_pos (by omega), show (4 * j.val + m.val) % 4 = m.val by omega,
      byteOf]
  · exact (getElem_writeColumn_state j v s k.val k.isLt).trans (if_neg other)
  · exact Vector.getElem_set_self _
  · exact Vector.getElem_set_ne _ _ fun same => other (Fin.ext same.symm)

/-- Settles O39: the write leaves its word in STATEj and sets the mark, so the read is not faulted. -/
theorem stateWriteThenRead : Obligations.StateWriteThenRead := by
  intro s rest j v
  let read : Event := .host (.read (Config.base + (0x010 + 4 * j.val)) 4)
  let written (agenda : List Event) := writeColumn j v { s with busy := false, agenda := agenda }
  refine ⟨written (read :: rest), reply (stateReg (written rest) j) (written rest),
    step_write_state { s with busy := false } (read :: rest) j v, ?_,
    congrArg some (stateReg_writeColumn j v _), rfl⟩
  have mark : (written rest).stateW[j] = true := Vector.getElem_set_self _
  exact (step_read (written (read :: rest)) rest (by omega) (regAt_state j)).trans
    (congrArg _ (readReg_state_written j (written rest) rfl mark))

/-- Settles O40: outside the readable and the writable offsets a word access names no register of that
direction. -/
theorem badAccessRaisesError : Obligations.BadAccessRaisesError := by
  intro s rest off size window code readable writable
  constructor
  · intro bad
    have unmapped (word : size = 4) : regAt off = none :=
      (regAt_eq_none off).2 fun mapped => bad ⟨word, mapped⟩
    rw [step_host, hostAccess_read _ _ _ window, hostRead_bad _ unmapped]
    rfl
  · intro bad v
    have notCmd (word : size = 4) : regAt off ≠ some .cmd := fun reg =>
      have := eq_of_regAt_cmd reg
      bad ⟨word, by omega, by omega⟩
    have notState (word : size = 4) (j : Fin 4) : regAt off ≠ some (.state j) := fun reg =>
      have := eq_of_regAt_state reg
      bad ⟨word, by omega, by omega⟩
    rw [step_host, hostAccess_write _ _ _ _ window, hostWrite_bad v _ notCmd notState]
    rfl

/-- Settles O42: a read changes reports only, a register's read keeps the latch, and what a read that is
no hazard returns does not depend on an earlier one. -/
theorem readsHaveNoSideEffects : Obligations.ReadsHaveNoSideEffects := by
  constructor
  · intro s t rest addr size h
    cases h
    obtain ⟨state, ks, rcon, result, busy, done, pending, phase, stateW, ksW, resW, key0, key1⟩ :=
      (hostAccess_read_sameCore addr size { s with agenda := rest }).frame
    refine ⟨state, ks, rcon, result, busy, done, pending, phase, stateW, ksW, resW, key0, key1, ?_⟩
    rintro off window rfl rfl mapped
    obtain ⟨r, reg⟩ := Option.ne_none_iff_exists'.1 mapped
    rw [hostAccess_read _ _ _ window, hostRead, if_pos rfl, reg]
    exact readReg_latch r _
  · intro s rest off window mapped control read
    obtain ⟨r, reg⟩ := Option.ne_none_iff_exists'.1 mapped
    have noHazard (busy : s.busy = true) : r = .cmd ∨ r = .status := by
      rcases control busy with rfl | rfl
      · exact .inl (Option.some.inj reg).symm
      · exact .inr (Option.some.inj reg).symm
    obtain ⟨faults, first⟩ := readReg_content r { s with agenda := read :: rest } noHazard
    let t : State :=
      { s with agenda := read :: rest, faults := faults, rdata := some (r.content s) }
    obtain ⟨faults', second⟩ := readReg_content r { t with agenda := rest } noHazard
    refine ⟨t, _, r.content s, ?_, step_read t rest window reg, rfl, ?_⟩
    · rw [step_read s (read :: rest) window reg, first, content_after_read r s _ s.rdata s.faults]
    · rw [second, content_after_read r s]

end Sys2Proof.Machine
end

section
/-! The decoder and the encoder are inverse to each other, and why a word is refused (30_encoding.md R70
to R78, R81). -/

namespace Sys2Proof

/-- R70 to R76: decoding the word of a well-formed command gives the command back. -/
theorem decode_encode {i : Instr} (wf : WellFormed i) : decode (encode i) = .ok i := by
  cases i with
  | sbox | mul2 | mul3 => simp [encode, decode, decodeArg]
  | expand | encrypt => simp [encode, decode, decodeKidx]
  | round | final => simp [encode, decode, decodeBare]
  | ark r =>
    have named : roundKeyNamed r = true := wf
    simp [encode, decode, decodeRnd, named]

section
variable {v : Word} {op : BitVec 4} {i : Instr} (holds : fieldOp v = op)
include holds

/-- R71, R73: a word whose only operand is ARG is the word of its command. -/
theorem encode_of_decodeArg {f : Byte → Instr} (word : ∀ x, encode (f x) = assemble op 0 0 x)
    (h : decodeArg v f = .ok i) : encode i = v := by
  unfold decodeArg at h
  split_ifs at h with unused
  cases h
  simp only [Bool.and_eq_true, beq_iff_eq] at unused
  obtain ⟨⟨reserved, kidx⟩, rnd⟩ := unused
  simpa only [word, holds, kidx, rnd] using assemble_of_fields v reserved

/-- R71, R73: a word whose only operand is KIDX is the word of its command. -/
theorem encode_of_decodeKidx {f : BitVec 4 → Instr} (word : ∀ k, encode (f k) = assemble op k 0 0)
    (h : decodeKidx v f = .ok i) : encode i = v := by
  unfold decodeKidx at h
  split_ifs at h with unused
  cases h
  simp only [Bool.and_eq_true, beq_iff_eq] at unused
  obtain ⟨⟨reserved, rnd⟩, arg⟩ := unused
  simpa only [word, holds, rnd, arg] using assemble_of_fields v reserved

/-- R71, R73: a word whose only operand is RND is the word of its command. -/
theorem encode_of_decodeRnd {f : BitVec 4 → Instr} (word : ∀ r, encode (f r) = assemble op 0 r 0)
    (h : decodeRnd v f = .ok i) : encode i = v := by
  unfold decodeRnd at h
  split_ifs at h with unused named
  cases h
  simp only [Bool.and_eq_true, beq_iff_eq] at unused
  obtain ⟨⟨reserved, kidx⟩, arg⟩ := unused
  simpa only [word, holds, kidx, arg] using assemble_of_fields v reserved

/-- R71, R73: a word without operands is the word of its command. -/
theorem encode_of_decodeBare {c : Instr} (word : encode c = assemble op 0 0 0)
    (h : decodeBare v c = .ok i) : encode i = v := by
  unfold decodeBare at h
  split_ifs at h with unused
  cases h
  simp only [Bool.and_eq_true, beq_iff_eq] at unused
  obtain ⟨⟨⟨reserved, kidx⟩, rnd⟩, arg⟩ := unused
  simpa only [word, holds, kidx, rnd, arg] using assemble_of_fields v reserved

end

/-- R71, R73: a word that decodes is the word of its command. -/
theorem encode_of_decode {v : Word} {i : Instr} (h : decode v = .ok i) : encode i = v := by
  unfold decode at h
  split_ifs at h with op op op op op op op op
  · exact encode_of_decodeArg op (fun _ => rfl) h
  · exact encode_of_decodeArg op (fun _ => rfl) h
  · exact encode_of_decodeArg op (fun _ => rfl) h
  · exact encode_of_decodeKidx op (fun _ => rfl) h
  · exact encode_of_decodeBare op rfl h
  · exact encode_of_decodeBare op rfl h
  · exact encode_of_decodeRnd op (fun _ => rfl) h
  · exact encode_of_decodeKidx op (fun _ => rfl) h

/-- R74, R75: a command that a word decodes to is well-formed. -/
theorem wellFormed_of_decode {v : Word} {i : Instr} (h : decode v = .ok i) : WellFormed i := by
  cases i with
  | ark r => exact decide_eq_true (roundKeyNamed_of_decode h)
  | sbox | mul2 | mul3 | expand | round | final | encrypt => rfl

/-- R70, R72: the word of a command holds its opcode. -/
theorem fieldOp_encode (i : Instr) : fieldOp (encode i) = opcode i := by
  cases i <;> exact fieldOp_assemble _ _ _ _

/-- R72: a word decodes to a command of its own opcode. -/
theorem opcode_of_decode {v : Word} {i : Instr} (h : decode v = .ok i) : opcode i = fieldOp v := by
  rw [← fieldOp_encode, encode_of_decode h]

/-- The number of two words side by side. -/
theorem toNat_append_eq_add {m n : Nat} (x : BitVec m) (y : BitVec n) :
    (x ++ y).toNat = x.toNat * 2 ^ n + y.toNat := by
  rw [BitVec.toNat_append, ← Nat.shiftLeft_add_eq_or_of_lt y.isLt, Nat.shiftLeft_eq]

/-- R70, R81: an assembled word is the sum of its fields, each shifted to its place. -/
theorem assemble_eq_add (op kidx rnd : BitVec 4) (arg : Byte) :
    assemble op kidx rnd arg = op.setWidth 32 + (kidx.setWidth 32 <<< 4) + (rnd.setWidth 32 <<< 8)
      + (arg.setWidth 32 <<< 16) := by
  apply BitVec.eq_of_toNat_eq
  simp only [assemble, toNat_append_eq_add, BitVec.toNat_add, BitVec.toNat_shiftLeft,
    BitVec.toNat_setWidth, Nat.shiftLeft_eq, BitVec.toNat_ofNat]
  omega

/-- R73: a command that asks only for zero unused fields is refused for an unused field only. -/
theorem eq_unusedField_of_ite {unused : Prop} [Decidable unused] {i : Instr} {e : Illegal}
    (h : (if unused then Except.ok i else .error .unusedField) = .error e) : e = .unusedField := by
  split_ifs at h
  cases h
  rfl

/-- R73, R77: a word whose only operand is RND is refused for an unused field, or else for its round
key. -/
theorem decodeRnd_eq_error {v : Word} {f : BitVec 4 → Instr} {e : Illegal}
    (h : decodeRnd v f = .error e) : e = .unusedField
      ∨ (e = .roundKey ∧ v &&& 0xFFFFF0F0 = 0 ∧ 10 < (fieldRnd v).toNat) := by
  rw [and_rndMask_eq_zero]
  unfold decodeRnd at h
  split_ifs at h with unused named <;> cases h
  · exact .inr ⟨rfl, by simpa [and_assoc] using unused, by simpa [roundKeyNamed] using named⟩
  · exact .inl rfl

/-- R77: everything a word can be refused for. -/
theorem decode_error_cases {v : Word} {e : Illegal} (h : decode v = .error e) :
    e = .unusedField
    ∨ (e = .opcode ∧ (fieldOp v = 0x0 ∨ 0x9 ≤ fieldOp v))
    ∨ (e = .roundKey ∧ fieldOp v = 0x7 ∧ v &&& 0xFFFFF0F0 = 0 ∧ 10 < (fieldRnd v).toNat) := by
  unfold decode at h
  split_ifs at h with op1 op2 op3 op4 op5 op6 op7 op8
  · exact .inl (eq_unusedField_of_ite h)
  · exact .inl (eq_unusedField_of_ite h)
  · exact .inl (eq_unusedField_of_ite h)
  · exact .inl (eq_unusedField_of_ite h)
  · exact .inl (eq_unusedField_of_ite h)
  · exact .inl (eq_unusedField_of_ite h)
  · exact (decodeRnd_eq_error h).imp_right fun ⟨reason, rest⟩ => .inr ⟨reason, op7, rest⟩
  · exact .inl (eq_unusedField_of_ite h)
  · cases h
    exact .inr (.inl ⟨rfl, by bv_omega⟩)

/-- R72: a word whose OP names no command is refused for its opcode. -/
theorem decode_of_unnamed_op {v : Word} (unnamed : fieldOp v = 0x0 ∨ 0x9 ≤ fieldOp v) :
    decode v = .error .opcode := by
  have apart (c : BitVec 4) (named : 0x1 ≤ c ∧ c ≤ 0x8) : fieldOp v ≠ c := by bv_omega
  simp [decode, apart]

/-- R75, R77: an ARK word with zero unused fields whose RND names no round key is refused for it. -/
theorem decode_of_unnamed_roundKey {v : Word} (op : fieldOp v = 0x7) (unused : v &&& 0xFFFFF0F0 = 0)
    (unnamed : 10 < (fieldRnd v).toNat) : decode v = .error .roundKey := by
  obtain ⟨reserved, kidx, arg⟩ := (and_rndMask_eq_zero v).1 unused
  simp [decode, decodeRnd, roundKeyNamed, op, reserved, kidx, arg, unnamed]

/-- Settles O3. -/
theorem decodeOfEncode : Obligations.DecodeOfEncode := fun _ => decode_encode

/-- Settles O4. -/
theorem encodeOfDecode : Obligations.EncodeOfDecode :=
  fun _ _ h => ⟨wellFormed_of_decode h, encode_of_decode h⟩

/-- Settles O5: the statement is the predicate `legal`, its fields written out. -/
theorem decodesExactlyTheLegalWords : Obligations.DecodesExactlyTheLegalWords := by
  intro v
  rw [decode_ok_iff_legal]
  simp only [legal, Bool.or_eq_true, Bool.and_eq_true, beq_iff_eq,
    decide_eq_true_eq, List.mem_cons, List.not_mem_nil, or_false, or_assoc, and_assoc]
  rfl

/-- Settles O6: each reason implies its condition by the cases of a refusal, and follows from it. -/
theorem refusalReasons : Obligations.RefusalReasons := by
  intro v
  refine ⟨⟨fun h => ?_, decode_of_unnamed_op⟩, ⟨fun h => ?_, ?_⟩⟩
  · simpa [fieldOp] using decode_error_cases h
  · simpa [fieldOp, fieldRnd, BitVec.lt_def] using decode_error_cases h
  · rintro ⟨op, unused, unnamed⟩
    exact decode_of_unnamed_roundKey op unused unnamed

/-- Settles O1, by evaluating the decoder on each word. -/
theorem specWordsDecode : Obligations.SpecWordsDecode := by
  unfold Obligations.SpecWordsDecode
  decide

/-- Settles O2: each sum is that of the fields of an assembled word. -/
theorem encodingsAreTheSpecSums : Obligations.EncodingsAreTheSpecSums := by
  unfold Obligations.EncodingsAreTheSpecSums
  simp [encode, assemble_eq_add]

end Sys2Proof
end

section
/-! The key expansion's RCON, EXPAND, ENCRYPT and the root key they select (41_key_schedule.md R120, R128,
43_cipher.md R171, 30_encoding.md R74). -/

namespace Sys2Proof.Machine

/-- R124, R128: RCON is 1, doubled once for each block of four words begun. -/
theorem expandTo_rc (k : Block) (n : Nat) (h : n ≤ 40) :
    (expandTo k n h).rc = xtime^[(n + 3) / 4] 0x01 := by
  induction n with
  | zero => rfl
  | succ n ih =>
    rw [expandTo, expandWord_rc, ih]
    by_cases start : n % 4 = 0
    · rw [if_pos start, ← Function.iterate_succ_apply' xtime,
        show (n + 1 + 3) / 4 = (n + 3) / 4 + 1 by omega]
    · rw [if_neg start, show (n + 1 + 3) / 4 = (n + 3) / 4 by omega]

/-- R128: the value an expansion leaves in RCON. -/
theorem expansion_rc (k : Block) : (expansion k).rc = 0x6C := by
  obtain ⟨words, all⟩ : ∃ N, N = 40 := ⟨_, rfl⟩
  rw [expansion_eq_expandTo k words all, expandTo_rc, all]
  decide

/-- R171, R201: a completed ENCRYPT. -/
theorem complete_orchestrating (k : Block) (s : State) (b : Block) :
    complete (orchestrating k s b .idle) = { s with
      state := b, stateW := #v[true, true, true, true], ks := expand k, ksW := true
      rcon := 0x6C, phase := .idle, pending := none, busy := false, done := true } := by
  rw [← expansion_rc k]
  rfl

/-- R74: index 0 selects KEY0. -/
@[simp] theorem rootKey_zero (s : State) : rootKey 0 s = s.key0 := rfl

/-- R74: every other index selects KEY1. -/
theorem rootKey_of_ne_zero {k : BitVec 4} (other : k ≠ 0) (s : State) : rootKey k s = s.key1 :=
  if_neg other

/-- R120: `EXPAND k` reads no more of its index than the root key it selects. -/
theorem exec_expand (k : BitVec 4) (s : State) : exec (.expand k) s = .next (complete
    (writeSchedule (expand (rootKey k s)) 0x6C s)) := by
  rw [← expansion_rc (rootKey k s)]
  rfl

/-- Settles O16, by the value the expansion leaves in RCON. -/
theorem expandCompletes : Obligations.ExpandCompletes := by
  intro k s
  rw [exec_expand]
  rfl

/-- Settles O28, by the 24 phases of the orchestrator and the value the expansion leaves in RCON. -/
theorem encryptComputesTheCipher : Obligations.EncryptComputesTheCipher := by
  intro k s
  rw [exec_encrypt, complete_orchestrating, rootKey]
  rfl

/-- Settles O17: EXPAND and ENCRYPT read their index through the root key it selects, and the word of
each decodes. -/
theorem keyIndexSelectsRootKey : Obligations.KeyIndexSelectsRootKey := by
  refine ⟨rootKey_zero, fun k s other => ?_, fun k => ?_⟩
  · have same : rootKey k s = rootKey 1 s := rootKey_of_ne_zero other s
    refine ⟨rootKey_of_ne_zero other s, ?_, ?_⟩
    · rw [exec_expand, exec_expand, same]
    · rw [exec_encrypt, exec_encrypt, same]
  · obtain ⟨-, -, -, expandSum, -, -, -, encryptSum⟩ := encodingsAreTheSpecSums
    rw [← expandSum, ← encryptSum]
    exact ⟨legal_of_decode (decode_encode rfl), legal_of_decode (decode_encode rfl)⟩

/-- Settles O25: the meaning of ARK asks first whether RND names a round key. -/
theorem arkStopsOnUnnamedRoundKey : Obligations.ArkStopsOnUnnamedRoundKey :=
  fun _ _ unnamed => dif_neg (Nat.not_lt.2 unnamed)

end Sys2Proof.Machine
end

section
/-! What a host write to CMD does (30_encoding.md R79, R80, 60_exceptions.md R205, R209). -/

namespace Sys2Proof.Machine

/-- R79: the commands that read STATE are those of the opcodes 0x5 to 0x8. -/
theorem readsState_iff (i : Instr) : readsState i = true ↔ 0x5 ≤ opcode i := by
  cases i <;> simp [readsState, opcode]

/-- R79: the command that reads KS is the one of the opcode 0x7. -/
theorem readsKs_iff (i : Instr) : readsKs i = true ↔ opcode i = 0x7 := by
  cases i <;> simp [readsKs, opcode]

/-- R37: all of STATE has been written when every mark is set. -/
theorem stateWritten_iff (s : State) :
    stateWritten s = true ↔ s.stateW = #v[true, true, true, true] := by
  unfold stateWritten
  constructor
  · intro marks
    simp only [Bool.and_eq_true] at marks
    obtain ⟨⟨⟨mark0, mark1⟩, mark2⟩, mark3⟩ := marks
    ext j hj
    interval_cases j <;> simp [mark0, mark1, mark2, mark3]
  · intro marks
    rw [marks]
    rfl

/-- R37: a conditional Unwritten changes the fault record only. -/
theorem raiseUnwrittenIf_eq (c : Bool) (s : State) : raiseUnwrittenIf c s =
    { s with faults := s.faults ++ if c then [.modelFault .unwritten] else [] } := by
  cases c with
  | true => rfl
  | false => simp [raiseUnwrittenIf]

/-- R80: a step on a 32-bit write at the offset of CMD. -/
theorem step_write_cmd (s : State) (rest : List Event) (v : Word) :
    step { s with agenda := .host (.write (Config.base + 0x000) 4 v) :: rest }
      = .next (presentCommand v { s with agenda := rest }) := by
  rw [step_host, hostAccess_write_cmd]

/-- R80: a CMD write while the core is busy. -/
theorem presentCommand_busy (v : Word) {s : State} (busy : s.busy = true) :
    presentCommand v s = raiseError .cmdBusy s := if_pos busy

/-- R80: a CMD write of an illegal word. -/
theorem presentCommand_illegal {v : Word} {s : State} (idle : s.busy = false)
    (illegal : legal v = false) : presentCommand v s = raiseError .illegalCmd s := by
  rw [presentCommand, if_neg (by simp [idle])]
  cases dec : decode v with
  | error e => rfl
  | ok i => simp [legal_of_decode dec] at illegal

/-- R80: a CMD write of a word that decodes. -/
theorem presentCommand_accepted {v : Word} {i : Instr} {s : State} (idle : s.busy = false)
    (dec : decode v = .ok i) : presentCommand v s = { s with
      pending := some v, busy := true, done := false
      faults := s.faults
        ++ (if readsState i && !stateWritten s then [.modelFault .unwritten] else [])
        ++ if readsKs i && !s.ksW then [.modelFault .unwritten] else [] } := by
  rw [presentCommand, if_neg (by simp [idle]), dec]
  simp only [raiseUnwrittenIf_eq]
  rfl

/-- Settles O43, clause by clause; of a legal word, the data its command reads is told by its opcode. -/
theorem commandAcceptance : Obligations.CommandAcceptance := by
  intro s rest v
  refine ⟨fun busy => ?_, fun idle illegal => ?_, fun idle isLegal => ?_⟩
  · rw [step_write_cmd, presentCommand_busy (s := { s with agenda := rest }) v busy]
    rfl
  · rw [step_write_cmd, presentCommand_illegal (s := { s with agenda := rest }) idle illegal]
    rfl
  · obtain ⟨i, dec⟩ := (decode_ok_iff_legal v).2 isLegal
    have op : opcode i = v.extractLsb' 0 4 := opcode_of_decode dec
    rw [step_write_cmd, presentCommand_accepted (s := { s with agenda := rest }) idle dec]
    simp [readsState_iff, readsKs_iff, stateWritten_iff, ← Bool.not_eq_true, op]

end Sys2Proof.Machine
end

section
/-! Doubling and multiplication by 3, and their commands (40_sbox_gf.md R104 to R108). -/

namespace Sys2Proof.Machine

/-- Byte XOR in any order: with `BitVec.xor_assoc` and `BitVec.xor_comm` it sorts a combination, so that
`simp` cancels equal parts. -/
theorem byte_xor_left_comm (a b c : Byte) : a ^^^ (b ^^^ c) = b ^^^ (a ^^^ c) := by ac_rfl

/-- R104: doubling as a shift combined with a constant that the high bit alone decides. -/
theorem xtime_eq_xor (x : Byte) :
    xtime x = x <<< 1 ^^^ if x.getLsbD 7 = true then 0x1B else 0 := by
  unfold xtime
  split <;> simp

/-- R108: doubling is linear. Where both high bits are set the two constants cancel. -/
theorem xtime_xor (a b : Byte) : xtime (a ^^^ b) = xtime a ^^^ xtime b := by
  simp only [xtime_eq_xor, BitVec.shiftLeft_xor_distrib, BitVec.getLsbD_xor]
  cases a.getLsbD 7 <;> cases b.getLsbD 7 <;>
    simp [BitVec.xor_assoc, BitVec.xor_comm, byte_xor_left_comm]

/-- R106, R108: multiplication by 3 is linear because doubling is. -/
theorem mul3_xor (a b : Byte) : mul3 (a ^^^ b) = mul3 a ^^^ mul3 b := by
  simp only [mul3, xtime_xor]
  ac_rfl

/-- R104: the high bit is set exactly when the doubled number exceeds a byte. -/
theorem highBit_iff (x : Byte) : x.getLsbD 7 = true ↔ ¬ 2 * x.toNat < 256 := by
  rw [← BitVec.msb_eq_getLsbD_last (x := x), BitVec.msb_eq_decide, decide_eq_true_eq]
  omega

/-- R104: the shift discards the carry-out. -/
theorem toNat_shiftLeft_one (x : Byte) : (x <<< 1).toNat = 2 * x.toNat % 2 ^ 8 := by
  rw [BitVec.toNat_shiftLeft, Nat.shiftLeft_eq, Nat.mul_comm]

/-- R108: the modulus cancels the carry-out of a doubled number, so that its low byte is left with the
modulus' low byte combined. -/
theorem xor_modulus_eq (n : Nat) (carry : n / 2 ^ 8 = 1) : n ^^^ 0x11B = n % 2 ^ 8 ^^^ 0x1B := by
  have quotient : (n ^^^ 0x11B) / 2 ^ 8 = 0 := by
    rw [Nat.xor_div_two_pow, carry]
    rfl
  have fits : n ^^^ 0x11B < 2 ^ 8 := Nat.lt_of_div_eq_zero (by decide) quotient
  rw [← Nat.mod_eq_of_lt fits, Nat.xor_mod_two_pow]

/-- Settles O8, by whether the doubled number exceeds a byte. -/
theorem xtimeIsReducedDoubling : Obligations.XtimeIsReducedDoubling := by
  intro x
  by_cases small : 2 * x.toNat < 256
  · rw [if_pos small, xtime, if_neg (mt (highBit_iff x).1 (not_not.2 small)), toNat_shiftLeft_one]
    exact Nat.mod_eq_of_lt small
  · have carry : 2 * x.toNat / 2 ^ 8 = 1 := by omega
    rw [if_neg small, xtime, if_pos ((highBit_iff x).2 small), BitVec.toNat_xor,
      toNat_shiftLeft_one, xor_modulus_eq _ carry]
    rfl

/-- Settles O9. -/
theorem multipliersAreLinear : Obligations.MultipliersAreLinear :=
  fun a b => ⟨xtime_xor a b, mul3_xor a b⟩

/-- R28, R37, R201: a completed command that writes RESULT. -/
theorem complete_writeResult (x : Byte) (s : State) :
    complete (writeResult x s) = { s with
      result := x, resW := true, pending := none, busy := false, done := true } := rfl

/-- R102: `SBOX x`. -/
theorem exec_sbox (x : Byte) (s : State) :
    exec (.sbox x) s = .next (complete (writeResult (sbox x) s)) := rfl

/-- R105: `MUL2 x`. -/
theorem exec_mul2 (x : Byte) (s : State) :
    exec (.mul2 x) s = .next (complete (writeResult (xtime x) s)) := rfl

/-- R107: `MUL3 x`. -/
theorem exec_mul3 (x : Byte) (s : State) :
    exec (.mul3 x) s = .next (complete (writeResult (mul3 x) s)) := rfl

/-- Settles O11: MUL2 completes with `xtime x`, which is R104's two cases. -/
theorem mul2Completes : Obligations.Mul2Completes := by
  intro x s
  rw [exec_mul2, complete_writeResult, xtime]

/-- Settles O12: MUL3 completes with `mul3 x`, which is R106 over R104's two cases. -/
theorem mul3Completes : Obligations.Mul3Completes := by
  intro x s
  rw [exec_mul3, complete_writeResult, mul3, xtime]

end Sys2Proof.Machine
end

section
/-! The S-box, its inverse, and its command (40_sbox_gf.md R101, R102). -/

namespace Sys2Proof.Machine

/-- R101: the inverse of the S-box table, laid out as that table is. It is a witness for the proofs only:
the core has no inverse S-box (00_scope.md R6). -/
def invSboxTable : Vector (Vector Byte 16) 16 :=
  #v[
    #v[0x52, 0x09, 0x6a, 0xd5, 0x30, 0x36, 0xa5, 0x38, 0xbf, 0x40, 0xa3, 0x9e, 0x81, 0xf3, 0xd7, 0xfb],
    #v[0x7c, 0xe3, 0x39, 0x82, 0x9b, 0x2f, 0xff, 0x87, 0x34, 0x8e, 0x43, 0x44, 0xc4, 0xde, 0xe9, 0xcb],
    #v[0x54, 0x7b, 0x94, 0x32, 0xa6, 0xc2, 0x23, 0x3d, 0xee, 0x4c, 0x95, 0x0b, 0x42, 0xfa, 0xc3, 0x4e],
    #v[0x08, 0x2e, 0xa1, 0x66, 0x28, 0xd9, 0x24, 0xb2, 0x76, 0x5b, 0xa2, 0x49, 0x6d, 0x8b, 0xd1, 0x25],
    #v[0x72, 0xf8, 0xf6, 0x64, 0x86, 0x68, 0x98, 0x16, 0xd4, 0xa4, 0x5c, 0xcc, 0x5d, 0x65, 0xb6, 0x92],
    #v[0x6c, 0x70, 0x48, 0x50, 0xfd, 0xed, 0xb9, 0xda, 0x5e, 0x15, 0x46, 0x57, 0xa7, 0x8d, 0x9d, 0x84],
    #v[0x90, 0xd8, 0xab, 0x00, 0x8c, 0xbc, 0xd3, 0x0a, 0xf7, 0xe4, 0x58, 0x05, 0xb8, 0xb3, 0x45, 0x06],
    #v[0xd0, 0x2c, 0x1e, 0x8f, 0xca, 0x3f, 0x0f, 0x02, 0xc1, 0xaf, 0xbd, 0x03, 0x01, 0x13, 0x8a, 0x6b],
    #v[0x3a, 0x91, 0x11, 0x41, 0x4f, 0x67, 0xdc, 0xea, 0x97, 0xf2, 0xcf, 0xce, 0xf0, 0xb4, 0xe6, 0x73],
    #v[0x96, 0xac, 0x74, 0x22, 0xe7, 0xad, 0x35, 0x85, 0xe2, 0xf9, 0x37, 0xe8, 0x1c, 0x75, 0xdf, 0x6e],
    #v[0x47, 0xf1, 0x1a, 0x71, 0x1d, 0x29, 0xc5, 0x89, 0x6f, 0xb7, 0x62, 0x0e, 0xaa, 0x18, 0xbe, 0x1b],
    #v[0xfc, 0x56, 0x3e, 0x4b, 0xc6, 0xd2, 0x79, 0x20, 0x9a, 0xdb, 0xc0, 0xfe, 0x78, 0xcd, 0x5a, 0xf4],
    #v[0x1f, 0xdd, 0xa8, 0x33, 0x88, 0x07, 0xc7, 0x31, 0xb1, 0x12, 0x10, 0x59, 0x27, 0x80, 0xec, 0x5f],
    #v[0x60, 0x51, 0x7f, 0xa9, 0x19, 0xb5, 0x4a, 0x0d, 0x2d, 0xe5, 0x7a, 0x9f, 0x93, 0xc9, 0x9c, 0xef],
    #v[0xa0, 0xe0, 0x3b, 0x4d, 0xae, 0x2a, 0xf5, 0xb0, 0xc8, 0xeb, 0xbb, 0x3c, 0x83, 0x53, 0x99, 0x61],
    #v[0x17, 0x2b, 0x04, 0x7e, 0xba, 0x77, 0xd6, 0x26, 0xe1, 0x69, 0x14, 0x63, 0x55, 0x21, 0x0c, 0x7d]]

/-- R101: the byte that the S-box maps to `y`. -/
def invSbox (y : Byte) : Byte :=
  (invSboxTable[(y.extractLsb' 4 4).toNat])[(y.extractLsb' 0 4).toNat]

/-- R101: the S-box after its inverse is the identity; every byte is looked up. -/
theorem sbox_invSbox (y : Byte) : sbox (invSbox y) = y := by
  revert y
  decide +kernel

theorem sbox_surjective : Function.Surjective sbox := fun y => ⟨invSbox y, sbox_invSbox y⟩

/-- R101: on the finitely many bytes a surjection is a permutation. -/
theorem sbox_injective : Function.Injective sbox := by
  rw [Finite.injective_iff_surjective]
  exact sbox_surjective

/-- R101: the S-box has no fixed point; every byte is looked up. -/
theorem sbox_ne_self (x : Byte) : sbox x ≠ x := by
  revert x
  decide +kernel

/-- Settles O7, by the inverse of the table. -/
theorem sboxPermutationNoFixedPoint : Obligations.SboxPermutationNoFixedPoint :=
  ⟨fun _ _ same => sbox_injective same, sbox_surjective, sbox_ne_self⟩

/-- Settles O10: the model's table and the statement's rows agree on every byte, and SBOX completes with
what the table holds. -/
theorem sboxCompletes : Obligations.SboxCompletes := by
  unfold Obligations.SboxCompletes
  intro rows entry
  have tables : ∀ x : Byte, sbox x = entry x := by decide +kernel
  refine ⟨tables, fun x s => ?_, by decide⟩
  rw [exec_sbox, complete_writeResult, tables]

end Sys2Proof.Machine
end

section
/-! The cipher is injective, because each transform it is composed of is (42_round.md R140, R150, R160,
43_cipher.md R170). MixColumns is, because four of it are the identity. -/

namespace Sys2Proof.Machine

/-- R144: one output byte of MixColumns from the column's bytes, its own first, with the linearity of
doubling used. The four rows of the matrix are this row, turned. -/
def mixRow (a b c d : Byte) : Byte := xtime (a ^^^ b) ^^^ (b ^^^ c ^^^ d)

/-- R144: the matrix is circulant. -/
theorem mixColumn_eq_mixRow (a b c d : Byte) : mixColumn #v[a, b, c, d] =
    #v[mixRow a b c d, mixRow b c d a, mixRow c d a b, mixRow d a b c] := by
  have row (a b c d : Byte) : xtime a ^^^ mul3 b ^^^ c ^^^ d = mixRow a b c d := by
    rw [mixRow, mul3, xtime_xor]
    ac_rfl
  rw [← row a, ← row b, ← row c, ← row d]
  change #v[xtime a ^^^ mul3 b ^^^ c ^^^ d, a ^^^ xtime b ^^^ mul3 c ^^^ d,
    a ^^^ b ^^^ xtime c ^^^ mul3 d, mul3 a ^^^ b ^^^ c ^^^ xtime d] = _
  ac_rfl

/-- R144: a row of the matrix' square, in which only the byte two places on is combined. -/
theorem mixRow_mixRow (a b c d : Byte) :
    mixRow (mixRow a b c d) (mixRow b c d a) (mixRow c d a b) (mixRow d a b c)
      = xtime (xtime (a ^^^ c)) ^^^ a := by
  have first : mixRow a b c d ^^^ mixRow b c d a = xtime (a ^^^ c) ^^^ (a ^^^ b) := by
    simp [mixRow, xtime_xor, BitVec.xor_assoc, BitVec.xor_comm, byte_xor_left_comm]
  have rest : mixRow b c d a ^^^ mixRow c d a b ^^^ mixRow d a b c = xtime (a ^^^ b) ^^^ a := by
    simp [mixRow, xtime_xor, BitVec.xor_assoc, BitVec.xor_comm, byte_xor_left_comm]
  rw [mixRow, first, rest, xtime_xor, BitVec.xor_assoc, xor_cancel_left]

/-- R144: the matrix' square. -/
theorem mixColumn_mixColumn (a b c d : Byte) : mixColumn (mixColumn #v[a, b, c, d]) =
    #v[xtime (xtime (a ^^^ c)) ^^^ a, xtime (xtime (b ^^^ d)) ^^^ b,
       xtime (xtime (c ^^^ a)) ^^^ c, xtime (xtime (d ^^^ b)) ^^^ d] := by
  simp only [mixColumn_eq_mixRow, mixRow_mixRow]

theorem quad_eq (q : Quad) : q = #v[q[0], q[1], q[2], q[3]] := by
  ext j hj : 1
  interval_cases j <;> rfl

/-- R144: the matrix' fourth power is the identity: in the square the same value is combined with a byte
and with the byte two places on, so it cancels. -/
theorem mixColumn_iterate_four (q : Quad) : mixColumn^[4] q = q := by
  have cancel (e a c : Byte) : e ^^^ a ^^^ (e ^^^ c) = a ^^^ c := by
    rw [byte_xor_left_comm, BitVec.xor_assoc, xor_cancel_left]
  rw [quad_eq q]
  change mixColumn (mixColumn (mixColumn (mixColumn _))) = _
  rw [mixColumn_mixColumn, mixColumn_mixColumn]
  simp [BitVec.xor_comm q[2] q[0], BitVec.xor_comm q[3] q[1], cancel]

theorem mixColumn_injective : Function.Injective mixColumn :=
  Function.LeftInverse.injective (g := mixColumn^[3]) mixColumn_iterate_four

/-- R21: byte m of column c. -/
theorem getElem_stateColumn (s : Block) (c : Fin 4) (m : Nat) (hm : m < 4) :
    (stateColumn s c)[m] = s[4 * c.val + m] := by
  interval_cases m <;> rfl

/-- R21: a state is its four columns. -/
theorem eq_of_stateColumn_eq {s t : Block} (columns : ∀ c, stateColumn s c = stateColumn t c) :
    s = t := by
  ext k hk : 1
  have byte := congrArg (·[k % 4]) (columns ⟨k / 4, by omega⟩)
  simpa [getElem_stateColumn, Nat.div_add_mod] using byte

/-- R144: MixColumns mixes each column alone. -/
theorem stateColumn_mixColumns (s : Block) (c : Fin 4) :
    stateColumn (mixColumns s) c = mixColumn (stateColumn s c) := by
  ext m hm : 1
  have column : (4 * c.val + m) / 4 = c.val := by omega
  have row : (4 * c.val + m) % 4 = m := by omega
  simp [getElem_stateColumn, column, row]

theorem mixColumns_injective : Function.Injective mixColumns := by
  intro s t same
  refine eq_of_stateColumn_eq fun c => mixColumn_injective ?_
  rw [← stateColumn_mixColumns, same, stateColumn_mixColumns]

/-- R140, R144: the source's equations are the matrix. -/
theorem mixEquations_eq_mixColumn (a b c d : Byte) :
    mixEquations a b c d = mixColumn #v[a, b, c, d] := by
  simp [mixEquations, mixColumn, mul3, BitVec.xor_assoc]

/-- R140, R150: a column of the round transform is the mixed column of the final transform. -/
theorem roundColumn_eq_mixColumn (s : Block) (c : Fin 4) :
    roundColumn s (4 * c.val) = mixColumn (stateColumn (ft s) c) := by
  rw [roundColumn, mixEquations_eq_mixColumn]
  fin_cases c <;> simp [stateColumn]

/-- R140, R150: the round transform is MixColumns of the final transform. -/
theorem rt_eq_mixColumns_ft (s : Block) : rt s = mixColumns (ft s) := by
  ext k hk : 1
  rw [getElem_rt, getElem_mixColumns, ← roundColumn_eq_mixColumn]

/-- R150: every byte stands, substituted, at some place of the final transform. -/
theorem ft_injective : Function.Injective ft := by
  intro s t same
  ext j hj : 1
  have place : ((j + 12 * (j % 4)) % 16 + 4 * ((j + 12 * (j % 4)) % 16 % 4)) % 16 = j := by omega
  have byte := congrArg (·[(j + 12 * (j % 4)) % 16]) same
  simp only [getElem_ft, place] at byte
  exact sbox_injective byte

theorem rt_injective : Function.Injective rt := by
  rw [show rt = mixColumns ∘ ft from funext rt_eq_mixColumns_ft]
  exact mixColumns_injective.comp ft_injective

/-- R160: adding the round key again gives the state back. -/
theorem ark_injective (k : Block) : Function.Injective (ark · k) :=
  Function.LeftInverse.injective (g := (ark · k)) fun s => xorBytes_cancel s k

/-- A fold is injective in its start when each of its steps is. -/
theorem foldl_injective {α β : Type} {f : α → β → α} (steps : ∀ b, Function.Injective (f · b))
    (l : List β) : Function.Injective fun a => l.foldl f a := by
  induction l with
  | nil => exact Function.injective_id
  | cons b l ih => exact ih.comp (steps b)

theorem middleRounds_injective (w : Schedule) : Function.Injective (middleRounds w) :=
  foldl_injective (fun r => (ark_injective (roundKey w r)).comp rt_injective) _

/-- Settles O32: the cipher under one key is a composition of injective transforms. -/
theorem cipherIsInjective : Obligations.CipherIsInjective := by
  intro k p q same
  have unkeyed := ark_injective (roundKey (expand k) 10) same
  have rounds := middleRounds_injective (expand k) (ft_injective unkeyed)
  exact ark_injective (roundKey (expand k) 0) rounds

end Sys2Proof.Machine
end

section
/-! The words of a schedule and the values the cipher gives (41_key_schedule.md R121 to R132,
95_test_vectors.md). -/

namespace Sys2Proof

theorem xorBytes_comm {n : Nat} (a b : Vector Byte n) : xorBytes a b = xorBytes b a := by
  ext m hm : 1
  simp [BitVec.xor_comm]

namespace Machine

/-- Settles O13. -/
theorem scheduleStartsWithRootKey : Obligations.ScheduleStartsWithRootKey :=
  roundKey_expand_zero

/-- Settles O15, by the ten doublings of RCON. -/
theorem expansionLeavesRcon : Obligations.ExpansionLeavesRcon :=
  expansion_rc

/-- R121: byte m of word n. -/
theorem getElem_scheduleWord (w : Schedule) (n : Fin 44) (m : Nat) (hm : m < 4) :
    (scheduleWord w n)[m] = w[4 * n.val + m] := by
  interval_cases m <;> rfl

/-- R125, R126, R127: the previous word as a new block begins. -/
theorem addRcon_subWord_rotWord (p : Quad) (rc : Byte) :
    addRcon (subWord (rotWord p)) rc = #v[sbox p[1] ^^^ rc, sbox p[2], sbox p[3], sbox p[0]] := rfl

/-- R124: the word one iteration of the loop writes. -/
theorem scheduleWord_expandWord (n : Nat) (hn : n < 40) (e : Expansion) :
    scheduleWord (expandWord n hn e).w ⟨n + 4, by omega⟩ =
      xorBytes (scheduleWord e.w ⟨n, by omega⟩)
        (if n % 4 = 0 then
          addRcon (subWord (rotWord (scheduleWord e.w ⟨n + 3, by omega⟩))) e.rc
        else scheduleWord e.w ⟨n + 3, by omega⟩) := by
  ext m hm : 1
  rw [xorBytes_comm, ← getElem_expandWord_new n hn e m hm, getElem_scheduleWord]
  simp only [show 4 * (n + 4) + m = 16 + 4 * n + m by omega]

/-- R122: the first sixteen bytes of a schedule are the root key's. -/
theorem getElem_expand_root (k : Block) (j : Nat) (hj : j < 16) : (expand k)[j] = k[j] :=
  (getElem_expand k 0 (by omega) j hj).trans (getElem_expandStart k j hj)

/-- R122: word n of a schedule, for n < 4, is word n of the root key. -/
theorem scheduleWord_expand_root (k : Block) (n : Fin 4) :
    scheduleWord (expand k) ⟨n.val, by omega⟩ =
      #v[k[4 * n.val], k[4 * n.val + 1], k[4 * n.val + 2], k[4 * n.val + 3]] := by
  have rootBytes := getElem_expand_root k
  generalize expand k = w at rootBytes ⊢
  rw [scheduleWord, rootBytes, rootBytes, rootBytes, rootBytes]

/-- R128: the round constants of the ten blocks. -/
def roundConstants : Vector Byte 10 :=
  #v[0x01, 0x02, 0x04, 0x08, 0x10, 0x20, 0x40, 0x80, 0x1B, 0x36]

/-- R128: the round constants are the successive doublings of 1. -/
theorem iterate_xtime_one : ∀ b : Fin 10, xtime^[b.val] 0x01 = roundConstants[b] := by
  decide

/-- R124, R128: RCON as a block begins is the block's round constant. -/
theorem expandTo_rc_of_start (k : Block) (n : Nat) (hn : n < 40) (start : n % 4 = 0) :
    (expandTo k n (by omega)).rc = roundConstants[n / 4] := by
  have block : (n + 3) / 4 = n / 4 := by omega
  rw [expandTo_rc, block]
  exact iterate_xtime_one ⟨n / 4, by omega⟩

/-- R124, R132: the recurrence of the words. -/
theorem scheduleWord_expand_next (k : Block) (n : Nat) (hn : n < 40) :
    scheduleWord (expand k) ⟨n + 4, by omega⟩ =
      xorBytes (scheduleWord (expand k) ⟨n, by omega⟩)
        (if n % 4 = 0 then
          addRcon (subWord (rotWord (scheduleWord (expand k) ⟨n + 3, by omega⟩)))
            roundConstants[n / 4]
        else scheduleWord (expand k) ⟨n + 3, by omega⟩) := by
  rw [scheduleWord_expand k (n + 1) hn (n + 4) (by omega), expandTo, scheduleWord_expandWord,
    scheduleWord_expand k n (by omega) n (by omega),
    scheduleWord_expand k n (by omega) (n + 3) (by omega)]
  by_cases start : n % 4 = 0
  · rw [if_pos start, if_pos start, expandTo_rc_of_start k n hn start]
  · rw [if_neg start, if_neg start]

/-- Settles O14: a word is the one the loop writes, with the previous word's bytes rotated, substituted
and combined at a new block. -/
theorem scheduleWordRecurrence : Obligations.ScheduleWordRecurrence := by
  refine fun k => ⟨scheduleWord_expand_root k, fun n hn => ?_⟩
  have next := scheduleWord_expand_next k n hn
  rw [addRcon_subWord_rotWord] at next
  exact next

/-- Settles O60, by evaluating the cipher and the expansion on the spec's vectors. -/
theorem knownAnswers : Obligations.KnownAnswers := by
  refine ⟨?_, ?_, ?_⟩
  · decide +kernel
  · decide +kernel
  · decide +kernel

end Machine

end Sys2Proof
end

section
/-! The round transform, the final transform and AddRoundKey, by their separate steps and as commands
(42_round.md R140 to R161, 70_reset_and_hazards.md R243). -/

namespace Sys2Proof.Machine

/-- R143, R150: the final transform substitutes the bytes and then moves them. -/
theorem ft_eq_shiftRows_subBytes (s : Block) : ft s = shiftRows (subBytes s) := by
  ext k hk : 1
  rw [getElem_ft, getElem_shiftRows, getElem_subBytes]

/-- R143, R150: substitution acts on each byte alone, so the bytes may be moved first. -/
theorem ft_eq_subBytes_shiftRows (s : Block) : ft s = subBytes (shiftRows s) := by
  ext k hk : 1
  rw [getElem_ft, getElem_subBytes, getElem_shiftRows]

/-- Settles O23, byte by byte. -/
theorem finalIsShiftOfSub : Obligations.FinalIsShiftOfSub :=
  fun s => ⟨ft_eq_shiftRows_subBytes s, ft_eq_subBytes_shiftRows s⟩

/-- Settles O19: the round transform is MixColumns of the final transform. -/
theorem roundIsMixOfShiftOfSub : Obligations.RoundIsMixOfShiftOfSub := by
  intro s
  rw [rt_eq_mixColumns_ft, ft_eq_shiftRows_subBytes]

/-- Settles O20: byte r + 4c moves by 4 places for each row, and wraps within its row. -/
theorem shiftRowsShiftsRowsLeft : Obligations.ShiftRowsShiftsRowsLeft := by
  intro s r c
  have source : (r.val + 4 * c.val + 4 * ((r.val + 4 * c.val) % 4)) % 16 =
      r.val + 4 * ((c.val + r.val) % 4) := by omega
  simp only [getElem_shiftRows, source]

/-- R144: byte m of column c after MixColumns. -/
theorem getElem_mixColumns_column (s : Block) (c : Fin 4) (m : Nat) (hm : m < 4) :
    (mixColumns s)[4 * c.val + m] = (mixColumn (stateColumn s c))[m] := by
  rw [← stateColumn_mixColumns, getElem_stateColumn]

/-- Settles O21: each output byte is a byte of its mixed column, whose rows are the matrix'. -/
theorem mixColumnsIsTheMatrix : Obligations.MixColumnsIsTheMatrix := fun s c =>
  ⟨getElem_mixColumns_column s c 0 (by decide), getElem_mixColumns_column s c 1 (by decide),
    getElem_mixColumns_column s c 2 (by decide), getElem_mixColumns_column s c 3 (by decide)⟩

/-- R140: byte m of the output column that starts at byte i. -/
theorem getElem_rt_column (s : Block) (i m : Nat) (hi : i < 16) (start : i % 4 = 0) (hm : m < 4) :
    (rt s)[(i + m) % 16] = (roundColumn s i)[m] := by
  have column : 4 * ((i + m) % 16 / 4) = i := by omega
  have row : (i + m) % 16 % 4 = m := by omega
  simp only [getElem_rt, column, row]

/-- R140: the output column that starts at byte i, whose first gathered byte is byte i itself. -/
theorem roundColumn_of_lt (s : Block) (i : Nat) (hi : i < 16) : roundColumn s i =
    mixEquations (sbox s[i]) (sbox (s[(i + 5) % 16])) (sbox (s[(i + 10) % 16]))
      (sbox (s[(i + 15) % 16])) := by
  simp only [roundColumn, Nat.mod_eq_of_lt hi]

/-- R141: `ROUND`. -/
theorem exec_round (s : State) :
    exec .round s = .next (complete (writeState (rt s.state) s)) := rfl

/-- R151: `FINAL`. -/
theorem exec_final (s : State) :
    exec .final s = .next (complete (writeState (ft s.state) s)) := rfl

/-- Settles O18: the four bytes of each output column are the source's equations, in their order. -/
theorem roundCompletes : Obligations.RoundCompletes := by
  intro s
  refine ⟨rt s.state, by rw [exec_round, complete_writeState], fun i start => ?_⟩
  have byte (m : Nat) (hm : m < 4) := getElem_rt_column s.state i.val m i.isLt start hm
  simp only [roundColumn_of_lt s.state i.val i.isLt] at byte
  have first := byte 0 (by decide)
  simp only [Nat.add_zero, Nat.mod_eq_of_lt i.isLt] at first
  exact ⟨first, byte 1 (by decide), byte 2 (by decide), byte 3 (by decide)⟩

/-- Settles O22, by the bytes of the final transform. -/
theorem finalCompletes : Obligations.FinalCompletes := by
  intro s
  refine ⟨ft s.state, by rw [exec_final, complete_writeState], fun k => ?_⟩
  rw [getElem_ft]

/-- Settles O26: ARK leaves KS, so the second adds the round key that the first added, which cancels. -/
theorem arkTwiceRestoresState : Obligations.ArkTwiceRestoresState := by
  intro r s legalIndex
  have named : r.toNat < 11 := by omega
  refine ⟨_, _, exec_ark r s named, exec_ark r _ named, ?_⟩
  simp only [complete_state, complete_ks, writeState_state, writeState_ks]
  exact xorBytes_cancel s.state _

/-- R161: the bytes of STATE after `ARK r`. -/
theorem getElem_state_of_exec_ark {r : BitVec 4} {s t : State} (h : exec (.ark r) s = .next t)
    (named : r.toNat < 11) (j : Nat) (hj : j < 16) :
    t.state[j] = s.state[j] ^^^ s.ks[16 * r.toNat + j] := by
  rw [exec_ark r s named] at h
  cases h
  rw [complete_state, writeState_state, getElem_ark, getElem_roundKey]

/-- Settles O27: EXPAND and ENCRYPT alike leave the schedule of the root key they select in KS, which is
what ARK reads. -/
theorem arkUsesTheLastSchedule : Obligations.ArkUsesTheLastSchedule := by
  intro k r s t u named expands adds j
  have schedule : t.ks = expand (rootKey k s) := by
    simp only [exec_eq_next_iff] at expands
    rcases expands with ran | ran
    · exact (ran.ks_of_expands (.inl rfl)).1
    · exact (ran.ks_of_expands (.inr rfl)).1
  rw [getElem_state_of_exec_ark adds named j.val j.isLt]
  simp only [schedule]

end Sys2Proof.Machine
end

section
/-! ENCRYPT: the order of its phases, what its result depends on, and the component commands it equals
(43_cipher.md R170 to R175). -/

namespace Sys2Proof.Machine

/-- R172: the next phase depends on the current one alone. -/
theorem advance_phase (k : Block) (s : State) : (advance k s).phase = nextPhase s.phase := rfl

/-- R172: so does the phase after n phases. -/
theorem runPhases_phase (k : Block) (n : Nat) (s : State) :
    (runPhases k n s).phase = nextPhase^[n] s.phase := by
  induction n with
  | zero => rfl
  | succ n ih => rw [runPhases, advance_phase, ih, Function.iterate_succ_apply']

/-- Settles O29: the phases are the iterates of `nextPhase` from Idle, whatever the key and the state. -/
theorem phaseSequenceIsFixed : Obligations.PhaseSequenceIsFixed := by
  intro k s
  simp only [runPhases_phase]
  decide

/-- R171: ENCRYPT leaves the cipher function's value in STATE and KS. -/
theorem state_ks_of_exec_encrypt {k : BitVec 4} {s t : State} (h : exec (.encrypt k) s = .next t) :
    (t.state, t.ks) = cipher (rootKey k s) s.state := by
  obtain rfl := Host.Outcome.next.inj ((exec_encrypt k s).symm.trans h)
  rfl

/-- Settles O30: the cipher function takes the selected root key and STATE, and nothing else. -/
theorem encryptDependsOnKeyAndStateOnly : Obligations.EncryptDependsOnKeyAndStateOnly := by
  intro k l s t s' t' sameKey samePlaintext runS runT
  have sameResult : (s'.state, s'.ks) = (t'.state, t'.ks) := by
    rw [state_ks_of_exec_encrypt runS, state_ks_of_exec_encrypt runT, sameKey, samePlaintext]
  exact Prod.mk.inj sameResult

/-- A command that completes hands its state to the commands after it. -/
theorem execAll_cons {i : Instr} {s t : State} (h : exec i s = .next t) (rest : List Instr) :
    execAll (i :: rest) s = execAll rest t := by
  rw [execAll, h]

/-- R75, R161: `ARK r` for each of the eleven round keys. -/
theorem exec_ark_ofNat (r : Fin 11) (s : State) :
    exec (.ark (BitVec.ofNat 4 r)) s =
      .next (complete (writeState (ark s.state (roundKey s.ks r)) s)) := by
  have index : (BitVec.ofNat 4 r).toNat = r := by
    rw [BitVec.toNat_ofNat]
    omega
  simp only [exec_ark _ s (index ▸ r.isLt), index]

/-! The component commands keep the state the orchestrator is in after its first key addition, but for
the working state and the completion bits. -/

section
variable (k : Block) (s : State) (b : Block) (p : Phase)

/-- R161, R172: the first ARK after an EXPAND. -/
theorem exec_ark_writeSchedule :
    exec (.ark 0) (complete (writeSchedule (expand k) (expansion k).rc s)) =
      .next (complete (orchestrating k s (ark s.state (roundKey (expand k) 0)) s.phase)) := by
  rw [exec_ark 0 _ (by decide)]
  rfl

/-- R170 steps 1 and 2: EXPAND and the first ARK. -/
theorem execAll_expand_ark (i : BitVec 4) (rest : List Instr) :
    execAll (.expand i :: .ark 0 :: rest) s =
      execAll rest (complete (orchestrating (rootKey i s) s
        (ark s.state (roundKey (expand (rootKey i s)) 0)) s.phase)) := by
  rw [execAll_cons (i := .expand i) rfl, execAll_cons (exec_ark_writeSchedule (rootKey i s) s)]

theorem exec_round_orchestrating : exec .round (complete (orchestrating k s b p)) =
    .next (complete (orchestrating k s (rt b) p)) := rfl

theorem exec_final_orchestrating : exec .final (complete (orchestrating k s b p)) =
    .next (complete (orchestrating k s (ft b) p)) := rfl

theorem exec_ark_orchestrating (r : Fin 11) :
    exec (.ark (BitVec.ofNat 4 r)) (complete (orchestrating k s b p)) =
      .next (complete (orchestrating k s (ark b (roundKey (expand k) r)) p)) :=
  exec_ark_ofNat r _

/-- R170 step 3: a ROUND and an ARK for each round of a list. -/
theorem execAll_rounds (rounds : List (Fin 11)) (rest : List Instr) :
    execAll (rounds.flatMap (fun r : Fin 11 => [.round, .ark (BitVec.ofNat 4 r)]) ++ rest)
        (complete (orchestrating k s b p)) =
      execAll rest (complete (orchestrating k s
        (rounds.foldl (fun t r => ark (rt t) (roundKey (expand k) r)) b) p)) := by
  induction rounds generalizing b with
  | nil => rfl
  | cons r rounds ih =>
    simp only [List.flatMap_cons, List.cons_append, List.nil_append, List.foldl_cons]
    rw [execAll_cons (exec_round_orchestrating k s b p),
      execAll_cons (exec_ark_orchestrating k s (rt b) p r), ih]

/-- R170 step 4: FINAL and the last ARK. -/
theorem execAll_final_ark : execAll [.final, .ark 10] (complete (orchestrating k s b p)) =
    .next (complete (orchestrating k s (ark (ft b) (roundKey (expand k) 10)) p)) := by
  have lastKey : (10 : BitVec 4) = BitVec.ofNat 4 (10 : Fin 11) := rfl
  rw [execAll_cons (exec_final_orchestrating k s b p), lastKey,
    execAll_cons (exec_ark_orchestrating k s (ft b) p 10), execAll]

end

/-- Settles O31: the component commands compute the four steps of R170 one after another. -/
theorem encryptEqualsItsComponents : Obligations.EncryptEqualsItsComponents := by
  intro k s idle
  have middle : ([1, 2, 3, 4, 5, 6, 7, 8, 9] : List (BitVec 4)).flatMap (fun r => [.round, .ark r]) =
      ([1, 2, 3, 4, 5, 6, 7, 8, 9] : List (Fin 11)).flatMap
        (fun r : Fin 11 => [Instr.round, .ark (BitVec.ofNat 4 r)]) := rfl
  rw [exec_encrypt, middle, List.append_assoc, List.cons_append, List.cons_append, List.nil_append,
    execAll_expand_ark, execAll_rounds, execAll_final_ark, idle, cipher, middleRounds]

end Sys2Proof.Machine
end

section
/-! What every command leaves alone, and that the machine goes on (60_exceptions.md R200 to R211). -/

namespace Sys2Proof.Machine

variable {s t : State} {i : Instr}

@[simp] theorem orchestrating_rdata (k : Block) (s : State) (b : Block) (p : Phase) :
    (orchestrating k s b p).rdata = s.rdata := rfl
@[simp] theorem orchestrating_freeCount (k : Block) (s : State) (b : Block) (p : Phase) :
    (orchestrating k s b p).freeCount = s.freeCount := rfl

/-- R202: no command answers a read of the host or draws a free value. -/
theorem CommandOutcome.reads_kept (h : CommandOutcome s i t) :
    t.rdata = s.rdata ∧ t.freeCount = s.freeCount := by
  cases h <;> simp

/-- Settles O33: the completion bits and the frame of what a command can do. -/
theorem commandsFrame : Obligations.CommandsFrame := by
  intro i s t h
  have outcome := (exec_eq_next_iff i s t).1 h
  obtain ⟨pending, busy, done⟩ := outcome.completed
  obtain ⟨err, errcode, faults, key0, key1, agenda⟩ := outcome.frame
  obtain ⟨rdata, freeCount⟩ := outcome.reads_kept
  exact ⟨pending, busy, done, err, errcode, key0, key1, faults, agenda, rdata, freeCount⟩

/-- Settles O56: the invariant lets only a legal word stand in PENDING, the one place a step could
stop. -/
theorem noStepStops : Obligations.NoStepStops := fun _ => exists_step_of_inv

/-- R201, R217: the engine's turn with nothing pending only uses up the turn. -/
theorem step_of_pending_none (turn : s.EngineNext) (empty : s.pending = none) :
    step s = .next { s with agenda := s.agenda.tail } := by
  rcases turn with last | first
  · have unchanged : { s with agenda := s.agenda.tail } = s := by rw [last, List.tail_nil, ← last]
    rw [unchanged, step, last]
    simp only [engineTurn, empty]
  · obtain ⟨rest, agenda⟩ := List.head?_eq_some_iff.1 first
    rw [step, agenda]
    simp only [engineTurn, empty, List.tail_cons]

/-- Settles O44: a command pending at the engine's turn is one the state runs; with nothing pending the
turn is idle. -/
theorem stepRunsThePendingCommand : Obligations.StepRunsThePendingCommand := by
  intro s rest v i dec
  have decodes : (some v).map decode = some (.ok i) := congrArg some dec
  exact ⟨step_of_runs ⟨.inr rfl, decodes⟩, step_of_runs ⟨.inl rfl, decodes⟩,
    step_of_pending_none (.inr rfl) rfl, step_of_pending_none (.inl rfl) rfl⟩

end Sys2Proof.Machine
end

section
/-! A host that obeys the spec's rules records no fault (70_reset_and_hazards.md R233, R240, R241). -/

namespace Sys2Proof.Machine

variable {s t : State}

/-- R233, R240: a read of a written data register while the core is not busy records no fault. -/
theorem readData_faults_of_written (v : Word) (idle : s.busy = false) :
    (readData true v s).faults = s.faults := by
  rw [readData_idle true v s idle]
  exact List.append_nil _

/-- R233, R240: a read the host may make of a register records no fault. -/
theorem readReg_faults_of_allowed {r : Reg} (allowed : readAllowed r s = true) :
    (readReg r s).faults = s.faults := by
  cases r with
  | cmd | status => rfl
  | result | state | ks =>
    simp only [readAllowed, Bool.and_eq_true, Bool.not_eq_true'] at allowed
    obtain ⟨idle, written⟩ := allowed
    rw [readReg, written]
    exact readData_faults_of_written _ idle

/-- R79, R80, R233: a CMD write the host may make is accepted with its command's data written. -/
theorem presentCommand_faults_of_allowed {v : Word} (allowed : writeAllowed .cmd v s = true) :
    (presentCommand v s).faults = s.faults := by
  simp only [writeAllowed, Bool.and_eq_true, Bool.not_eq_true'] at allowed
  obtain ⟨idle, command⟩ := allowed
  cases dec : decode v with
  | error e => simp [dec] at command
  | ok i =>
    simp only [dec, inputsWritten, Bool.and_eq_true] at command
    obtain ⟨stateInput, ksInput⟩ := command
    have noState : (readsState i && !stateWritten s) = false := by
      simpa [imp_iff_not_or] using stateInput
    have noKs : (readsKs i && !s.ksW) = false := by simpa [imp_iff_not_or] using ksInput
    rw [presentCommand_accepted idle dec, noState, noKs]
    simp

/-- R56, R240: a STATE write while the core is not busy records no fault. -/
theorem writeStateReg_faults_of_idle (j : Fin 4) (v : Word) (idle : s.busy = false) :
    (writeStateReg j v s).faults = s.faults := by
  rw [writeStateReg, if_neg (by simp [idle])]
  rfl

/-- R54, R233, R240: a word read the host may make at an offset of the window records no fault. -/
theorem hostRead_faults_of_allowed {off : Nat}
    (allowed : (regAt off).any (readAllowed · s) = true) : (hostRead off 4 s).faults = s.faults := by
  obtain ⟨r, reg, may⟩ := (Option.any_eq_true _ _).1 allowed
  rw [hostRead, if_pos rfl, reg]
  exact readReg_faults_of_allowed may

/-- R54, R233, R240: a word write the host may make at an offset of the window records no fault. -/
theorem hostWrite_faults_of_allowed {off : Nat} {v : Word}
    (allowed : (regAt off).any (writeAllowed · v s) = true) :
    (hostWrite off 4 v s).faults = s.faults := by
  obtain ⟨r, reg, may⟩ := (Option.any_eq_true _ _).1 allowed
  rw [hostWrite, if_pos rfl, reg]
  cases r with
  | cmd => exact presentCommand_faults_of_allowed may
  | state j => exact writeStateReg_faults_of_idle j v (by simpa [writeAllowed] using may)
  | status | result | ks => simp [writeAllowed] at may

/-- R54, R233, R240, R241: an access of a host that obeys the spec's rules records no fault. -/
theorem hostAccess_faults_of_allowed {a : Access} (allowed : accessAllowed a s = true) :
    (hostAccess a s).faults = s.faults := by
  cases a with
  | read addr size =>
    cases window : windowOffset addr with
    | none => simp only [hostAccess, window]
    | some off =>
      simp only [accessAllowed, window, Bool.and_eq_true, beq_iff_eq] at allowed
      obtain ⟨rfl, may⟩ := allowed
      simp only [hostAccess, window]
      exact hostRead_faults_of_allowed may
  | write addr size v =>
    cases window : windowOffset addr with
    | none => simp only [hostAccess, window]
    | some off =>
      simp only [accessAllowed, window, Bool.and_eq_true, beq_iff_eq] at allowed
      obtain ⟨rfl, may⟩ := allowed
      simp only [hostAccess, window]
      exact hostWrite_faults_of_allowed may

/-- R233, R240, R241: the next access of a host that obeys is one it may make. -/
theorem accessAllowed_of_hostObeys {a : Access} (obeys : s.HostObeys = true)
    (next : s.agenda.head? = some (.host a)) :
    accessAllowed a { s with agenda := s.agenda.tail } = true := by
  obtain ⟨rest, agenda⟩ := List.head?_eq_some_iff.1 next
  rw [State.HostObeys, agenda] at obeys
  rw [agenda, List.tail_cons]
  exact obeys

/-- R38, R233: a step of a host that obeys leaves the fault record as it was: its accesses report
nothing, and neither a reset nor a command writes the record. -/
theorem step_faults_of_hostObeys (obeys : s.HostObeys = true) (h : step s = .next t) :
    t.faults = s.faults := by
  cases step_outcome h with
  | host a next does =>
    rw [does]
    exact hostAccess_faults_of_allowed (accessAllowed_of_hostObeys obeys next)
  | reset next does => rw [does]; rfl
  | idle turn empty does => rw [does]
  | command i runs does =>
    obtain ⟨-, -, faults, -⟩ := does.frame
    exact faults

/-- Settles O58: the step leaves the empty record as it was. -/
theorem obeyingHostMeetsNoFault : Obligations.ObeyingHostMeetsNoFault :=
  fun _ _ _ clean obeys h => (step_faults_of_hostObeys obeys h).trans clean

end Sys2Proof.Machine
end
